-- ==== Sys2Proof/Word.lean ====
section
/-! DEFINITION. The word types of the block (00_scope.md R9): bytes, object ids, instance ids. Every value is unsigned. -/

namespace Sys2Proof

/-- `u8` (R9). -/
abbrev Byte := BitVec 8

/-- `u16` (R9), the width of the length field. -/
abbrev Half := BitVec 16

/-- `u32`, an object id (R25, R75): the full unsigned range is legal. -/
abbrev ObjId := BitVec 32

/-- `u16`, an instance id (R26, R76). -/
abbrev InstId := BitVec 16

end Sys2Proof
end

