-- ==== Sys2Proof/Config.lean ====
section
/-! DEFINITION. The constants of 00_scope.md R6 and the two parameters of R7. -/

namespace Sys2Proof.Config

/-- `SYNC_VAL` (R6, R71). -/
def syncVal : Byte := 0x3C

/-- `HEADER_LEN` (R6, C8): sync byte to last instance-id byte. -/
def headerLen : Nat := 10

/-- `MAX_PAYLOAD` (R6, C2): also the size of the payload buffer (R31). -/
def maxPayload : Nat := 255

/-- `SIZE_MIN` (R6). -/
def sizeMin : Nat := 10

/-- `SIZE_MAX` (R6, C5): the bound of the check in state `Size`, one more than any length a frame can have. -/
def sizeMax : Nat := 266

/-- `ALL_INSTANCES` (R6, R26): the reserved instance id. -/
def allInstances : InstId := 0xFFFF

/-- `CRC_POLY` (R6). -/
def crcPoly : Byte := 0x07

/-- `CRC_INIT` (R6). `CRC_XOROUT` is 0 and so changes nothing. -/
def crcInit : Byte := 0x00

/-- A parameter of R7: "a positive natural number or `unbounded`". `finite k` is the number `k + 1`, so it is
positive by its form. -/
inductive Limit where
  | unbounded
  | finite (pred : Nat)
  deriving DecidableEq, Repr

/-- The two parameters of R7, which "a model takes as arguments": they stand in State and no step writes them (log 7). -/
structure Params where
  /-- `TXN_DEPTH`: the number of entries of the transaction table. -/
  txnDepth : Limit
  /-- `STAT_W`: the width in bits of each counter. -/
  statW : Limit
  deriving DecidableEq, Repr

/-- The parameters `State.reset` carries. `STAT_W` is the default R7 gives, 32. DESIGN CHOICE (unsafe): R7 gives
`TXN_DEPTH` no default; unbounded is used (log 7). -/
def defaultParams : Params := { txnDepth := .unbounded, statW := .finite 31 }

end Sys2Proof.Config
end

