-- ==== Sys2Proof/Syntax.lean ====
section
/-! DEFINITION. The instruction set: one constructor of `Instr` per row of spec/opcode_table.json (30_encoding.md R80, R85),
the frame types, the names of the errors, and the decoder's own rejections. -/

namespace Sys2Proof

/-- The five frame types, a "closed enumeration" (R80). -/
inductive FrameType where
  | obj
  | objReq
  | objAck
  | ack
  | nack
  deriving DecidableEq, Repr

/-- The instructions. A frame row stands for a received frame that passed every check of the receive machine
(44_dispatch.md: "the fields of the validated frame"); a host row for one operation of R85. -/
inductive Instr where
  /-- `OBJ` (R172). -/
  | obj (objid : ObjId) (instid : InstId) (payload : List Byte)
  /-- `OBJ_REQ` (R174). -/
  | objReq (objid : ObjId) (instid : InstId)
  /-- `OBJ_ACK` (R173). -/
  | objAck (objid : ObjId) (instid : InstId) (payload : List Byte)
  /-- `ACK` (R175). -/
  | ack (objid : ObjId) (instid : InstId)
  /-- `NACK` (R176). -/
  | nack (objid : ObjId) (instid : InstId)
  /-- `CRC8_UPDATE` (R100). -/
  | crc8Update (crc byte : Byte)
  /-- `CRC8_UPDATE_MANY` (R101). -/
  | crc8UpdateMany (crc : Byte) (data : List Byte)
  /-- `BUILD_FRAME` (R110). -/
  | buildFrame (type : FrameType) (objid : ObjId) (instid : InstId) (data : List Byte)
  /-- `FEED_BYTE` (R120). -/
  | feedByte (byte : Byte)
  /-- `SEND_OBJECT` (R192). -/
  | sendObject (objid : ObjId) (instid : InstId) (acked all : Bool)
  /-- `SEND_REQUEST` (R194). -/
  | sendRequest (objid : ObjId) (instid : InstId) (all : Bool)
  /-- `CANCEL_TRANSACTION` (R157). -/
  | cancelTransaction (objid : ObjId) (instid : InstId)
  /-- `STATS_RESET` (R213). -/
  | statsReset
  /-- `STATS_READ` (R214). -/
  | statsRead
  deriving DecidableEq, Repr

/-- The error names of 60_exceptions.md R220, in the order of their codes 1 to 12. -/
inductive ErrorName where
  | badSync
  | badVersion
  | badSize
  | lengthMismatch
  | badChecksum
  | byteCount
  | unknownObject
  | payloadTooLarge
  | transmitFailure
  | castError
  | illegalAllInstances
  | tableFull
  deriving DecidableEq, Repr

/-- Why bytes are no instruction: the decoder's rejections, by name. -/
inductive DecodeError where
  /-- No byte at all. -/
  | empty
  /-- The first byte is neither the sync byte nor one of the codes 0 to 8 of R85 (U9). -/
  | unknownOperation (code : Byte)
  /-- A host operation with too few or too many operand bytes (log 4). -/
  | operandCount
  /-- In a host operation, a reserved bit of a flags byte (log 4), or a type operand that is none of the five type bytes
  (R86). -/
  | reservedOperand
  /-- A frame that ends before its header and checksum are complete (R54: 11 bytes at least). -/
  | truncatedFrame
  /-- A type byte outside the five of R80 (R81). -/
  | illegalType (type : Byte)
  /-- A length field outside 10 to 266 (R82). -/
  | illegalLength
  /-- A length field that is not 10 plus the payload length (R74, R82). -/
  | lengthMismatch
  /-- A payload on a frame type that carries none (R77). -/
  | unexpectedPayload
  /-- A payload of 256 bytes or more (R70). -/
  | payloadTooLarge
  /-- A checksum byte that is not the CRC of the bytes before it (R78). -/
  | badChecksum
  deriving DecidableEq, Repr

end Sys2Proof
end

