-- ==== Sys2Proof/Machine/Operands.lean ====
section
/-! DEFINITION. Operand forms (30_encoding.md R79, R80, R86; 20_memory.md R51): the type byte, and the little-endian fields as
byte sequences, as whole values, and one byte at a time as the receive machine assembles them. -/

namespace Sys2Proof

/-- The `KIND` field of a frame type, `TYPE[4:0]` (R72, R80). -/
def FrameType.kind : FrameType → Byte
  | .obj => 0
  | .objReq => 1
  | .objAck => 2
  | .ack => 3
  | .nack => 4

/-- The version marker in the high three bits, as a byte mask (R73). -/
def versionMarker : Byte := 0x20

/-- The `TYPE` byte (R72, R80): version marker and kind. -/
def FrameType.byte (t : FrameType) : Byte := versionMarker ||| t.kind

/-- The frame type of a type byte; `none` for the illegal ones (R81): "comparing the whole type byte with these five
values". -/
def FrameType.ofByte (b : Byte) : Option FrameType :=
  if b = 0x20 then some .obj
  else if b = 0x21 then some .objReq
  else if b = 0x22 then some .objAck
  else if b = 0x23 then some .ack
  else if b = 0x24 then some .nack
  else none

/-- Whether frames of this type carry the object's bytes (R77): "absent for ObjectRequest/Ack/Nack". -/
def FrameType.carriesPayload : FrameType → Bool
  | .obj => true
  | .objReq => false
  | .objAck => true
  | .ack => false
  | .nack => false

end Sys2Proof

namespace Sys2Proof.Machine

/-- `le16(v)` (R9). -/
def le16 (v : Half) : List Byte := [v.extractLsb' 0 8, v.extractLsb' 8 8]

/-- `le32(v)` (R9). -/
def le32 (v : ObjId) : List Byte :=
  [v.extractLsb' 0 8, v.extractLsb' 8 8, v.extractLsb' 16 8, v.extractLsb' 24 8]

/-- A u16 field from its two bytes, the one with the lower offset first (R51, R79). -/
def join16 (b0 b1 : Byte) : Half := b0.setWidth 16 ||| (b1.setWidth 16 <<< 8)

/-- A u32 field from its four bytes (R51, R79). -/
def join32 (b0 b1 b2 b3 : Byte) : ObjId :=
  b0.setWidth 32 ||| (b1.setWidth 32 <<< 8) ||| (b2.setWidth 32 <<< 16) ||| (b3.setWidth 32 <<< 24)

/-- The second byte of a u16 field put above the first (R124, R126): `v | (zext_16(byte) << 8)`. -/
def putHigh (v : Half) (b : Byte) : Half := v ||| (b.setWidth 16 <<< 8)

/-- Byte `k` of the object id put in place (R125): `v | (zext_32(byte) << (8 * k))`. -/
def putByte (v : ObjId) (k : Nat) (b : Byte) : ObjId := v ||| (b.setWidth 32 <<< (8 * k))

end Sys2Proof.Machine
end

