-- ==== Sys2Proof/Machine/Frame.lean ====
section
/-! DEFINITION. Unit U_FRM (41_frame_build.md R110): the packet framer, a pure function. -/

namespace Sys2Proof.Machine

/-- The ten header bytes of a frame whose length field is `len` (R54, R70). -/
def frameHeader (type : Byte) (len : Half) (o : ObjId) (i : InstId) : List Byte :=
  [Config.syncVal, type] ++ le16 len ++ le32 o ++ le16 i

/-- The bytes of a frame with payload `p`: header with `LENGTH = 10 + n` (R74), payload, checksum over all of them (R78). -/
def frameBytes (t : FrameType) (o : ObjId) (i : InstId) (p : List Byte) : List Byte :=
  let body := frameHeader t.byte (BitVec.ofNat 16 (Config.headerLen + p.length)) o i ++ p
  body ++ [crc8 body]

/-- `BUILD_FRAME` (R110): fails exactly when the payload has 256 bytes or more; looks at nothing else. -/
def buildFrame (t : FrameType) (o : ObjId) (i : InstId) (p : List Byte) : Except ErrorName (List Byte) :=
  if Config.maxPayload < p.length then .error .payloadTooLarge else .ok (frameBytes t o i p)

end Sys2Proof.Machine
end

