-- ==== Sys2Proof/WellFormed.lean ====
section
/-! DEFINITION. Which instructions the wire can carry: the payload bound of 30_encoding.md R70. Operands of host operations
are bounded by their types alone (R86: `data` is "a byte sequence of any length"). -/

namespace Sys2Proof

/-- A payload a frame can carry: 0 to 255 bytes (R70, C2). -/
def payloadOk (p : List Byte) : Bool := p.length ≤ Config.maxPayload

/-- Well-formedness of an instruction. -/
def Instr.wellFormed : Instr → Bool
  | .obj _ _ p => payloadOk p
  | .objReq _ _ => true
  | .objAck _ _ p => payloadOk p
  | .ack _ _ => true
  | .nack _ _ => true
  | .crc8Update _ _ => true
  | .crc8UpdateMany _ _ => true
  | .buildFrame _ _ _ _ => true
  | .feedByte _ => true
  | .sendObject _ _ _ _ => true
  | .sendRequest _ _ _ => true
  | .cancelTransaction _ _ => true
  | .statsReset => true
  | .statsRead => true

end Sys2Proof
end

