-- ==== Sys2Proof/Decode.lean ====
section
/-! DEFINITION. The decoder, total on any bytes, and the encoder. A wire frame begins with the sync byte (R70, R71); a host
operation with its code 0 to 8 (R85). The spec gives host operations no binary form; the operand layout is a DESIGN CHOICE
(safe: no rule depends on it, log 4): code byte, fixed operands little-endian, then `data` to the end. -/

namespace Sys2Proof

open Machine

/-- The instruction of a validated frame: its type and fields (44_dispatch.md, "the fields of the validated frame"). -/
def frameInstr (t : FrameType) (o : ObjId) (i : InstId) (p : List Byte) : Instr :=
  match t with
  | .obj => .obj o i p
  | .objReq => .objReq o i
  | .objAck => .objAck o i p
  | .ack => .ack o i
  | .nack => .nack o i

/-- The checks on a whole frame given as its fields and the bytes after the header (payload and checksum): R81, R82, R77,
R70, R78. -/
def decodeFrame (ty : Byte) (len : Half) (o : ObjId) (i : InstId) (tail : List Byte) : Except DecodeError Instr :=
  match FrameType.ofByte ty with
  | none => .error (.illegalType ty)
  | some t =>
    if len.toNat < Config.sizeMin ∨ Config.sizeMax < len.toNat then .error .illegalLength
    else
      let p := tail.dropLast
      if Config.maxPayload < p.length then .error .payloadTooLarge
      else if len.toNat ≠ Config.headerLen + p.length then .error .lengthMismatch
      else if t.carriesPayload = false ∧ p ≠ [] then .error .unexpectedPayload
      else if tail.getLast? ≠ some (crc8 (frameHeader ty len o i ++ p)) then .error .badChecksum
      else .ok (frameInstr t o i p)

/-- A Bool operand as one bit (R86: "single bits, 1 = true"). -/
def bit (b : Bool) : Byte := if b then 1 else 0

/-- The flags byte of `SEND_OBJECT`: bit 0 `acked`, bit 1 `all` (log 4). -/
def sendFlags (acked all : Bool) : Byte := bit acked ||| (bit all <<< 1)

/-- The operation of a code and its operand bytes (R85, R86, log 4). The `type` of `BUILD_FRAME` is carried as its type byte,
and no other byte than the five is an operand (R86). -/
def decodeHost (op : Byte) (args : List Byte) : Except DecodeError Instr :=
  if op = 0 then
    match args with
    | [c, b] => .ok (.crc8Update c b)
    | _ => .error .operandCount
  else if op = 1 then
    match args with
    | c :: data => .ok (.crc8UpdateMany c data)
    | _ => .error .operandCount
  else if op = 2 then
    match args with
    | ty :: o0 :: o1 :: o2 :: o3 :: i0 :: i1 :: data =>
      match FrameType.ofByte ty with
      | some t => .ok (.buildFrame t (join32 o0 o1 o2 o3) (join16 i0 i1) data)
      | none => .error .reservedOperand
    | _ => .error .operandCount
  else if op = 3 then
    match args with
    | [b] => .ok (.feedByte b)
    | _ => .error .operandCount
  else if op = 4 then
    match args with
    | [o0, o1, o2, o3, i0, i1, f] =>
      if f &&& 0xFC = 0 then .ok (.sendObject (join32 o0 o1 o2 o3) (join16 i0 i1) (f.getLsbD 0) (f.getLsbD 1))
      else .error .reservedOperand
    | _ => .error .operandCount
  else if op = 5 then
    match args with
    | [o0, o1, o2, o3, i0, i1, f] =>
      if f &&& 0xFE = 0 then .ok (.sendRequest (join32 o0 o1 o2 o3) (join16 i0 i1) (f.getLsbD 0))
      else .error .reservedOperand
    | _ => .error .operandCount
  else if op = 6 then
    match args with
    | [o0, o1, o2, o3, i0, i1] => .ok (.cancelTransaction (join32 o0 o1 o2 o3) (join16 i0 i1))
    | _ => .error .operandCount
  else if op = 7 then
    match args with
    | [] => .ok .statsReset
    | _ => .error .operandCount
  else if op = 8 then
    match args with
    | [] => .ok .statsRead
    | _ => .error .operandCount
  else .error (.unknownOperation op)

/-- The decoder: the first byte tells a wire frame from a host operation. -/
def decode : List Byte → Except DecodeError Instr
  | [] => .error .empty
  | b0 :: rest =>
    if b0 = Config.syncVal then
      match rest with
      | ty :: l0 :: l1 :: o0 :: o1 :: o2 :: o3 :: i0 :: i1 :: c :: tail =>
        decodeFrame ty (join16 l0 l1) (join32 o0 o1 o2 o3) (join16 i0 i1) (c :: tail)
      | _ => .error .truncatedFrame
    else decodeHost b0 rest

/-- The encoder: a frame's bytes as R70 gives them, an operation's as log 4 lays them out. -/
def encode : Instr → List Byte
  | .obj o i p => frameBytes .obj o i p
  | .objReq o i => frameBytes .objReq o i []
  | .objAck o i p => frameBytes .objAck o i p
  | .ack o i => frameBytes .ack o i []
  | .nack o i => frameBytes .nack o i []
  | .crc8Update c b => [0, c, b]
  | .crc8UpdateMany c data => 1 :: c :: data
  | .buildFrame t o i data => 2 :: t.byte :: (le32 o ++ le16 i ++ data)
  | .feedByte b => [3, b]
  | .sendObject o i acked all => 4 :: (le32 o ++ le16 i ++ [sendFlags acked all])
  | .sendRequest o i all => 5 :: (le32 o ++ le16 i ++ [bit all])
  | .cancelTransaction o i => 6 :: (le32 o ++ le16 i)
  | .statsReset => [7]
  | .statsRead => [8]

/-- The bytes of a table word, bit 0 the least significant bit of the first (the table's numbering). -/
def wordBytes : Nat → Nat → List Byte
  | 0, _ => []
  | n + 1, w => BitVec.ofNat 8 w :: wordBytes n (w / 256)

/-- `bs` followed by what `full` has beyond its length: the table gives operands no bits, and they are as in `full`. -/
def completeWith (full bs : List Byte) : List Byte := bs ++ full.drop bs.length

/-- A host operation of code `op` with every operand bit 0 and no `data` (log 4). The type byte of `BUILD_FRAME` keeps its
constant version bits, which are no operand bits (R73, log 5). -/
def hostZero (op : Byte) : List Byte :=
  if op = 0 then [op, 0, 0] else if op = 1 then [op, 0] else if op = 2 then [op, versionMarker, 0, 0, 0, 0, 0, 0]
  else if op = 3 then [op, 0] else if op = 4 then [op, 0, 0, 0, 0, 0, 0, 0] else if op = 5 then [op, 0, 0, 0, 0, 0, 0, 0]
  else if op = 6 then [op, 0, 0, 0, 0, 0, 0] else [op]

/-- A table word as the bytes the block is given. A frame row's word is numbered from the `TYPE` byte, offset 1 of the frame
(its "match_on"), and gives the fields after it; `SYNC`, `LENGTH` and `CHECKSUM` are no operands but what R71, R74 and R78
make them. A host row's word is the operation's own bytes. -/
def tableBytes (nbits w : Nat) : List Byte :=
  let bs := wordBytes ((nbits + 7) / 8) w
  match bs with
  | [] => []
  | b0 :: _ =>
    match FrameType.ofByte b0 with
    | some t =>
      match completeWith (List.replicate 9 0) bs with
      | _ :: _ :: _ :: o0 :: o1 :: o2 :: o3 :: i0 :: i1 :: p =>
        frameBytes t (join32 o0 o1 o2 o3) (join16 i0 i1) p
      | _ => []
    | none => completeWith (hostZero b0) bs

/-- The instruction the decoder reads from a table word. -/
def decodeTableWord (nbits w : Nat) : Option Instr :=
  match decode (tableBytes nbits w) with
  | .ok i => some i
  | .error _ => none

end Sys2Proof
end

