-- ==== Sys2Proof/Machine/State.lean ====
section
/-! DEFINITION. The state of the block (10_state.md R20 to R39) as plain data, its environment and its ports as the model
holds them (20_memory.md R50 to R58), the reasons a step can stop, and the state after reset. -/

namespace Sys2Proof.Machine

/-! The receive machine (R20 (a)). -/

/-- `rx_state` (R21). -/
inductive RxState where
  | sync
  | type
  | size
  | objectId
  | instanceId
  | data
  | checksum
  | complete
  | error
  deriving DecidableEq, Repr

/-- `ObjectMeta` (R30, R55): what the catalog knows of an object. -/
structure ObjectMeta where
  fixedSize : Nat
  singleInstance : Bool
  deriving DecidableEq, Repr

/-- The payload buffer `rx_buf` (R31) as the bytes that are not 0x00, by rising index; the canonical form is `Memory.wf`. -/
abbrev Memory := List Host.Cell

/-- The receive registers (R21 to R31). -/
structure Rx where
  /-- R21. -/
  state : RxState
  /-- R22. -/
  crc : Byte
  /-- R23. -/
  type : Byte
  /-- R24. -/
  size : Half
  /-- R25. -/
  objid : ObjId
  /-- R26. -/
  instid : InstId
  /-- R27. -/
  count : BitVec 8
  /-- R28. -/
  expected : BitVec 8
  /-- R29. -/
  pktlen : BitVec 9
  /-- R30. -/
  objMeta : Option ObjectMeta
  /-- R31. -/
  buf : Memory
  deriving DecidableEq, Repr

/-! The transaction table (R33, R34). -/

/-- `t_resp` (R33): the reply a transaction waits for. -/
inductive Resp where
  | obj
  | ack
  deriving DecidableEq, Repr

/-- A key of the table (R33). -/
abbrev TxnKey := ObjId × InstId

/-- A valid entry (R33). -/
structure TxnEntry where
  objid : ObjId
  instid : InstId
  resp : Resp
  deriving DecidableEq, Repr

/-- The valid entries by rising key: the finite partial map of R33. Slots are "not observable" (log 11). -/
abbrev TxnTable := List TxnEntry

/-! The counters (R35). -/

/-- The six counters, in the order of the `STATS_READ` snapshot (R35). -/
structure Stats where
  txBytes : Nat
  txObjects : Nat
  txErrors : Nat
  rxBytes : Nat
  rxObjects : Nat
  rxErrors : Nat
  deriving DecidableEq, Repr

/-! The environment: what answers the block's queries (R55, R56). Not state of the block (R36); held here so that a step is a
function of the state (log 1). -/

/-- The kind of a handle (R55). -/
inductive HandleKind where
  | metadata
  | dataInstance
  deriving DecidableEq, Repr

/-- One stored object instance: its handle's kind, its bytes, and whether `pack` succeeds on it (R55). -/
structure Stored where
  kind : HandleKind
  bytes : List Byte
  packs : Bool
  deriving DecidableEq, Repr

/-- A catalog state (R280): the objects it knows, the instances that exist, and what an instance that `create_instance` makes
for a key is, in its handle's kind, its bytes and whether `pack` succeeds on it: answers of the environment (U5, log 23). -/
structure Catalog where
  objects : List (ObjId × ObjectMeta)
  stored : List (TxnKey × Stored)
  fresh : List (TxnKey × Stored)
  deriving DecidableEq, Repr

/-- The sink (R56): its answers to the next writes, `true` for accept, and its answer when they are used up. -/
structure Sink where
  answers : List Bool
  after : Bool
  deriving DecidableEq, Repr

/-- The environment of one engine instance. -/
structure Env where
  catalog : Catalog
  sink : Sink
  deriving DecidableEq, Repr

/-! What leaves the block (R55 to R58), and what comes to it. -/

/-- `FrameOutcome` (R87, R132); `framedOk` carries the dispatch status of R170 (D27). -/
inductive FrameOutcome where
  | awaitingMore
  | framedOk (type : FrameType) (objid : ObjId) (instid : InstId) (payload : List Byte) (dispatchOk : Bool)
  | discarded
  deriving DecidableEq, Repr

/-- The result of a host operation on `P_HOST` (R85, R87). -/
inductive HostResult where
  | ok
  | fail (e : ErrorName)
  | crc (c : Byte)
  | frame (f : List Byte)
  | found (b : Bool)
  deriving DecidableEq, Repr

/-- One thing the block puts out. -/
inductive PortEvent where
  /-- `P_TX`: a frame presented to the sink and the sink's answer (R56). -/
  | tx (frame : List Byte) (accepted : Bool)
  /-- `P_OUT`: the outcome of a `FEED_BYTE` step (R57). -/
  | outcome (o : FrameOutcome)
  /-- `P_NOTE`: `success(objid, instid)` (R231). -/
  | success (objid : ObjId) (instid : InstId)
  /-- `P_NOTE`: `failure(objid, instid)` (R231). -/
  | failure (objid : ObjId) (instid : InstId)
  /-- `P_HOST`: the result of an operation (R58). -/
  | result (r : HostResult)
  /-- `P_STAT`: the statistics snapshot (R58, R214). -/
  | stats (st : Stats)
  /-- `P_CAT`: `Cat.create_instance` (R55). -/
  | create (objid : ObjId) (instid : InstId)
  /-- `P_CAT`: `h.unpack` (R55). -/
  | unpack (objid : ObjId) (instid : InstId) (payload : List Byte)
  /-- A label, no signal: the error name R220 gives this transition ("A model may attach the name", log 9). -/
  | raised (e : ErrorName)
  deriving DecidableEq, Repr

/-- What comes from outside, in the total order of R60 (log 2). -/
inductive Arrival where
  /-- One operation on `P_HOST`, `P_RX` or `P_STAT`, as the bytes of log 4. -/
  | op (bytes : List Byte)
  /-- The reset event (R260, log 21). -/
  | reset
  /-- The environment has changed between two steps (R63): it now is `e`. -/
  | environment (e : Env)
  deriving DecidableEq, Repr

/-- The machine. `rx`, `txn` and `stats` are the block's state (R20); the other fields are the model's own. -/
structure State where
  /-- The receive machine (R20 (a)). -/
  rx : Rx
  /-- The transaction table (R20 (b)). -/
  txn : TxnTable
  /-- The counters (R20 (c)). -/
  stats : Stats
  /-- The parameters (R7); no step writes them (log 7). -/
  params : Config.Params
  /-- The environment (R55, R56, log 1). -/
  env : Env
  /-- What is still to come from outside, next first (log 2). -/
  inbox : List Arrival
  /-- What the block has put out, oldest first (log 3). -/
  out : List PortEvent
  deriving DecidableEq, Repr

/-- Why the machine stops where the spec describes no behaviour. Both reasons need a state no run from reset reaches (R39);
nothing else is fatal (R221). -/
inductive Fault where
  /-- Raised by `FEED_BYTE` in state `Data` with `rx_count = 255`: the payload buffer has no byte 255 (R31). Safe (log 13). -/
  | bufferIndex
  /-- Raised by `FEED_BYTE` when a frame completes with a type register that is none of the five type bytes: no dispatch
  rule exists (R170). Safe (log 14). -/
  | noDispatchRule
  deriving DecidableEq, Repr

/-- Why a step is not taken. -/
inductive Refusal where
  /-- Raised by `exec` alone for an instruction without a meaning; no arm does so now. Safe. -/
  | notModelled (mnemonic : String)
  /-- Raised by the fetch when an arrival's bytes are no instruction: the ports cannot express them (U9). Safe (log 17). -/
  | undecodable (e : DecodeError)
  /-- Raised by the fetch when a whole wire frame is handed over as one operation: frames arrive on `P_RX` byte by byte
  (R57). Safe (log 17). -/
  | frameAsOperation
  deriving DecidableEq, Repr

/-- The receive registers after reset (R38). -/
def Rx.reset : Rx :=
  { state := .sync, crc := 0, type := 0, size := 0, objid := 0, instid := 0, count := 0, expected := 0, pktlen := 0,
    objMeta := none, buf := [] }

/-- The counters after reset (R38) and after `STATS_RESET` (R213). -/
def Stats.zero : Stats :=
  { txBytes := 0, txObjects := 0, txErrors := 0, rxBytes := 0, rxObjects := 0, rxErrors := 0 }

/-- The environment before anyone has set one up (R262). DESIGN CHOICE (unsafe, log 8): the spec gives the environment no
state at reset; here the catalog knows nothing and no sink is attached, so every write is rejected (R262 (d)). -/
def Env.unattached : Env :=
  { catalog := { objects := [], stored := [], fresh := [] }, sink := { answers := [], after := false } }

/-- The machine right after reset (R38, R260), with nothing to come and nothing put out. -/
def State.reset : State :=
  { rx := Rx.reset, txn := [], stats := Stats.zero, params := Config.defaultParams, env := Env.unattached, inbox := [],
    out := [] }

end Sys2Proof.Machine
end

