-- ==== Sys2Proof/Machine/Ops.lean ====
section
/-! DEFINITION. The named operations over the state: output, counters, the payload buffer, the transaction table, the
catalog and the sink, error entry and recovery, reset. Every meaning is built from these. -/

namespace Sys2Proof.Machine

/-! Output. -/

/-- Put one event out (log 3). -/
def emit (e : PortEvent) (s : State) : State := { s with out := s.out ++ [e] }

/-! Counters (46_stats_system.md). -/

/-- `sat_inc(c, n)` (R212). -/
def satInc (w : Config.Limit) (c n : Nat) : Nat :=
  match w with
  | .unbounded => c + n
  | .finite k => min (c + n) (2 ^ (k + 1) - 1)

/-- `rx_bytes` + 1 (R121, D9). -/
def countRxByte (s : State) : State :=
  { s with stats := { s.stats with rxBytes := satInc s.params.statW s.stats.rxBytes 1 } }

/-- `rx_objects` + 1 (R136, D10). -/
def countRxObject (s : State) : State :=
  { s with stats := { s.stats with rxObjects := satInc s.params.statW s.stats.rxObjects 1 } }

/-- `rx_errors` + 1 (R211, D8). -/
def countRxError (s : State) : State :=
  { s with stats := { s.stats with rxErrors := satInc s.params.statW s.stats.rxErrors 1 } }

/-- A frame of `n` bytes was sent: `tx_bytes` + `n`, `tx_objects` + 1 (R190, D11). -/
def countTxFrame (n : Nat) (s : State) : State :=
  { s with stats := { s.stats with
      txBytes := satInc s.params.statW s.stats.txBytes n
      txObjects := satInc s.params.statW s.stats.txObjects 1 } }

/-- `tx_errors` + 1 (R190, D11). -/
def countTxError (s : State) : State :=
  { s with stats := { s.stats with txErrors := satInc s.params.statW s.stats.txErrors 1 } }

/-! The payload buffer (R31, R50 (3)). -/

/-- Byte `a` of the buffer; what is not listed reads as the reset contents 0x00 (R38). -/
def Memory.read (m : Memory) (a : Nat) : Byte :=
  match m with
  | [] => 0
  | c :: rest => if c.1 = a then c.2 else Memory.read rest a

/-- `buf[a] <- v` (R10), keeping the canonical form: rising indices, no 0x00 listed. -/
def Memory.write (a : Nat) (v : Byte) (m : Memory) : Memory :=
  match m with
  | [] => if v = 0 then [] else [(a, v)]
  | c :: rest =>
    if a < c.1 then (if v = 0 then c :: rest else (a, v) :: c :: rest)
    else if a = c.1 then (if v = 0 then rest else (a, v) :: rest)
    else c :: Memory.write a v rest

/-- `m[0 .. n]` (R9): the first `n` bytes. -/
def Memory.firstBytes (m : Memory) (n : Nat) : List Byte := (List.range n).map (Memory.read m)

/-- Every index listed is at least `lo`, below 255 and above the one before it, and no listed byte is 0x00. -/
def Memory.wfFrom (lo : Nat) (m : Memory) : Bool :=
  match m with
  | [] => true
  | c :: rest => lo ≤ c.1 && c.1 < Config.maxPayload && c.2 ≠ 0 && Memory.wfFrom (c.1 + 1) rest

/-- The canonical form of the buffer (log 12). -/
def Memory.wf (m : Memory) : Bool := Memory.wfFrom 0 m

/-- `bytes` written from index `a` on. -/
def Memory.writeAll (a : Nat) (bytes : List Byte) (m : Memory) : Memory :=
  match bytes with
  | [] => m
  | b :: rest => Memory.writeAll (a + 1) rest (Memory.write a b m)

/-! The transaction table (43_txn_table.md). -/

/-- A key as one number, the object id above the instance id: the order the entries stand in. -/
def keyNat (o : ObjId) (i : InstId) : Nat := o.toNat * 65536 + i.toNat

/-- `Txn[(o, i)]`; `none` when the key is not in the domain (R33). -/
def TxnTable.get (t : TxnTable) (o : ObjId) (i : InstId) : Option Resp :=
  match t with
  | [] => none
  | e :: rest => if e.objid = o ∧ e.instid = i then some e.resp else TxnTable.get rest o i

/-- `TXN_OPEN(o, i, r)` (R152): the entry is replaced or added. -/
def TxnTable.insert (o : ObjId) (i : InstId) (r : Resp) (t : TxnTable) : TxnTable :=
  match t with
  | [] => [⟨o, i, r⟩]
  | e :: rest =>
    if keyNat o i < keyNat e.objid e.instid then ⟨o, i, r⟩ :: e :: rest
    else if keyNat o i = keyNat e.objid e.instid then ⟨o, i, r⟩ :: rest
    else e :: TxnTable.insert o i r rest

/-- `TXN_CLOSE(k)` (R153): the entry is removed. -/
def TxnTable.close (k : TxnKey) (t : TxnTable) : TxnTable :=
  match t with
  | [] => []
  | e :: rest => if e.objid = k.1 ∧ e.instid = k.2 then rest else e :: TxnTable.close k rest

/-- `TXN_FIND(o, i)` (R151, D14): the exact key first, then the all-instances key. -/
def TxnTable.find (t : TxnTable) (o : ObjId) (i : InstId) : Option TxnKey :=
  if (t.get o i).isSome then some (o, i)
  else if (t.get o Config.allInstances).isSome then some (o, Config.allInstances)
  else none

/-- `TXN_CLOSABLE(k, kind, i)` (R158, D16). -/
def TxnTable.closable (t : TxnTable) (k : TxnKey) (kind : Resp) (i : InstId) : Bool :=
  t.get k.1 k.2 = some kind && (k.2 ≠ Config.allInstances || i = 0)

/-- Whether a table with `n` valid entries has a free one (R156). -/
def roomFor (depth : Config.Limit) (n : Nat) : Bool :=
  match depth with
  | .unbounded => true
  | .finite k => n < k + 1

/-- `TXN_CAN_OPEN(o, i)` (R156, D13). -/
def TxnTable.canOpen (depth : Config.Limit) (t : TxnTable) (o : ObjId) (i : InstId) : Bool :=
  (t.get o i).isSome || roomFor depth t.length

/-- Every key is at least `lo` and above the one before it. -/
def TxnTable.wfFrom (lo : Nat) (t : TxnTable) : Bool :=
  match t with
  | [] => true
  | e :: rest => lo ≤ keyNat e.objid e.instid && TxnTable.wfFrom (keyNat e.objid e.instid + 1) rest

/-- The canonical form of the table: rising keys, so no key twice (R34). -/
def TxnTable.wf (t : TxnTable) : Bool := TxnTable.wfFrom 0 t

/-- Open a transaction in the state. -/
def openTxn (o : ObjId) (i : InstId) (r : Resp) (s : State) : State := { s with txn := s.txn.insert o i r }

/-- Close the transaction and then notify success with the key it was stored under (R231). -/
def closeSuccess (k : TxnKey) (s : State) : State :=
  emit (.success k.1 k.2) { s with txn := s.txn.close k }

/-- Close the transaction and then notify failure with the key it was stored under (R157, R231). -/
def closeFailure (k : TxnKey) (s : State) : State :=
  emit (.failure k.1 k.2) { s with txn := s.txn.close k }

/-! The catalog (R55). -/

/-- The value listed for a key, first match. -/
def lookupIn {α β : Type} [DecidableEq α] (k : α) (l : List (α × β)) : Option β :=
  match l with
  | [] => none
  | e :: rest => if e.1 = k then some e.2 else lookupIn k rest

/-- The list with the key's first value replaced, or the pair added at the end. -/
def storeIn {α β : Type} [DecidableEq α] (k : α) (v : β) (l : List (α × β)) : List (α × β) :=
  match l with
  | [] => [(k, v)]
  | e :: rest => if e.1 = k then (k, v) :: rest else e :: storeIn k v rest

/-- `Cat.lookup(o)` (R55). -/
def Catalog.lookup (c : Catalog) (o : ObjId) : Option ObjectMeta := lookupIn o c.objects

/-- `Cat.lookup_instance(o, i)` (R55). No instance has the reserved id (U2, log 10). -/
def Catalog.lookupInstance (c : Catalog) (o : ObjId) (i : InstId) : Option Stored :=
  if i = Config.allInstances then none else lookupIn (o, i) c.stored

/-- The ids put in, each once, largest first. -/
def insertDescending (i : InstId) (l : List InstId) : List InstId :=
  match l with
  | [] => [i]
  | j :: rest =>
    if j < i then i :: j :: rest else if i = j then j :: rest else j :: insertDescending i rest

/-- `Cat.instance_ids(o)` sorted by descending value (R55, R193, D20): the ids of the instances that exist. -/
def Catalog.instanceIds (c : Catalog) (o : ObjId) : List InstId :=
  c.stored.foldr (fun e ids =>
    if e.1.1 = o ∧ e.1.2 ≠ Config.allInstances then insertDescending e.1.2 ids else ids) []

/-- `h.pack()` (R55): `none` is `fail`. -/
def Stored.pack (x : Stored) : Option (List Byte) := if x.packs then some x.bytes else none

/-- What an instance that `create_instance` makes for this key is (U5). Any value is possible: kind, bytes and whether `pack`
succeeds are what the catalog lists. DESIGN CHOICE (safe, log 23): for a key it does not list, a `DataInstance` that holds no
bytes and on which `pack` succeeds. -/
def Catalog.freshInstance (c : Catalog) (k : TxnKey) : Stored :=
  (lookupIn k c.fresh).getD { kind := .dataInstance, bytes := [], packs := true }

/-- The environment with an instance put into its catalog. -/
def Env.store (k : TxnKey) (x : Stored) (e : Env) : Env :=
  { e with catalog := { e.catalog with stored := storeIn k x e.catalog.stored } }

/-- `Cat.create_instance(o, i)` (R55): the instance now exists. Its handle's kind, its bytes and whether `pack` succeeds on it
are what the environment answers, none of them fixed here (U5, log 23). -/
def createInstance (o : ObjId) (i : InstId) (s : State) : State × Stored :=
  let x := s.env.catalog.freshInstance (o, i)
  (emit (.create o i) { s with env := s.env.store (o, i) x }, x)

/-- `h.unpack(p)` on the handle `x` of `(o, i)` (R55): the bytes are stored into the instance. -/
def unpackInto (o : ObjId) (i : InstId) (x : Stored) (p : List Byte) (s : State) : State :=
  emit (.unpack o i p) { s with env := s.env.store (o, i) { x with bytes := p } }

/-! The sink (R56). -/

/-- The sink's next answer. -/
def Sink.answer (k : Sink) : Bool := k.answers.headD k.after

/-- The sink after one answer. -/
def Sink.advance (k : Sink) : Sink := { k with answers := k.answers.tail }

/-- `Sink.write(f)` (R56): the frame is presented; the answer comes from the sink. -/
def sinkWrite (f : List Byte) (s : State) : State :=
  emit (.tx f s.env.sink.answer) { s with env := { s.env with sink := s.env.sink.advance } }

/-! Error entry, recovery, reset (60_exceptions.md R236, R238; 70_reset_and_hazards.md R260). -/

/-- A receive-side error is counted and labelled with its name (R220, R236). -/
def raiseRx (e : ErrorName) (s : State) : State := countRxError (emit (.raised e) s)

/-- A transmit-side error is counted and labelled with its name (R190, R220). -/
def raiseTx (e : ErrorName) (s : State) : State := countTxError (emit (.raised e) s)

/-- The receive sequencer is moved: `rx_state <- S` (R10). -/
def setRxState (st : RxState) (s : State) : State := { s with rx := { s.rx with state := st } }

/-- `raise E(cause)` of the receive machine: error entry (R236). The registers keep what the step wrote. -/
def enterError (e : ErrorName) (s : State) : State := setRxState .error (raiseRx e s)

/-- A rejection that goes straight to `Sync` (R122, R123, R236): counted the same, another state name. -/
def rejectToSync (e : ErrorName) (s : State) : State := setRxState .sync (raiseRx e s)

/-- The state a byte is examined in (R121, R238): `Complete` and `Error` have become `Sync`. -/
def RxState.recover : RxState → RxState
  | .complete => .sync
  | .error => .sync
  | st => st

/-- The prologue of every `FEED_BYTE` (R121), which is also the recovery from `Error` (R238). -/
def beginByte (s : State) : State := setRxState s.rx.state.recover (countRxByte s)

/-- The reset event (R260): the block's whole state is put to the values of R38; the environment, the parameters and what
was already put out stay. -/
def resetBlock (s : State) : State := { s with rx := Rx.reset, txn := [], stats := Stats.zero }

end Sys2Proof.Machine
end

