-- ==== Sys2Proof/Machine/Codec.lean ====
section
/-! DEFINITION. The pure host operations: `CRC8_UPDATE` and `CRC8_UPDATE_MANY` (40_crc8.md), `BUILD_FRAME`
(41_frame_build.md). They return a result and change no state of the block. -/

namespace Sys2Proof.Machine

/-- The meaning of `CRC8_UPDATE` (R100). -/
def execCrc8Update (c b : Byte) (s : State) : Host.Outcome State Fault Refusal :=
  .next (emit (.result (.crc (crc8Update c b))) s)

/-- The meaning of `CRC8_UPDATE_MANY` (R101). -/
def execCrc8UpdateMany (c : Byte) (data : List Byte) (s : State) : Host.Outcome State Fault Refusal :=
  .next (emit (.result (.crc (crc8UpdateMany c data))) s)

/-- The result of the framer as `P_HOST` returns it (R87, R110). -/
def frameResult : Except ErrorName (List Byte) → HostResult
  | .ok f => .frame f
  | .error e => .fail e

/-- The meaning of `BUILD_FRAME` (R110). -/
def execBuildFrame (t : FrameType) (o : ObjId) (i : InstId) (data : List Byte) (s : State) :
    Host.Outcome State Fault Refusal :=
  .next (emit (.result (frameResult (buildFrame t o i data))) s)

end Sys2Proof.Machine
end

