-- ==== Sys2Proof/Machine/Flags.lean ====
section
/-! DEFINITION. The flag-like values of the block (10_state.md R32): there are no condition codes; what there is are the
outcome of a `FEED_BYTE` step (42_rx_fsm.md R132) and the dispatch status with its counter (R136, R170). -/

namespace Sys2Proof.Machine

/-- The payload of the frame in the receive registers: `rx_buf[0 .. rx_expected]` (R31, R130). -/
def Rx.payload (r : Rx) : List Byte := r.buf.firstBytes r.expected.toNat

/-- Whether the byte just fed "became part of a frame still in progress" (R132). -/
def RxState.inProgress : RxState → Bool
  | .sync => false
  | .type => true
  | .size => true
  | .objectId => true
  | .instanceId => true
  | .data => true
  | .checksum => true
  | .complete => false
  | .error => false

/-- Return the outcome of a `FEED_BYTE` step that completed no frame, a function of `rx_state` after it (R132, D7). A step
that ended in `Complete` goes to `finishFrame` instead. -/
def returnOutcome (s : State) : State :=
  emit (.outcome (if s.rx.state.inProgress then .awaitingMore else .discarded)) s

/-- The end of a step that completed a frame (R136, R132): one counter by the dispatch status, then `FramedOk`. -/
def finishFrame (t : FrameType) (o : ObjId) (i : InstId) (p : List Byte) (r : State × Bool) : State :=
  emit (.outcome (.framedOk t o i p r.2)) (if r.2 then countRxObject r.1 else countRxError r.1)

end Sys2Proof.Machine
end

