-- ==== Sys2Proof/Machine/Transmit.lean ====
section
/-! DEFINITION. Unit U_TXP, the procedures behind the sends and the replies (45_transmit.md R190, R191, R193, R192). -/

namespace Sys2Proof.Machine

/-- The result of a transmission (R190): `ok` or `fail(E)`. -/
inductive SendResult where
  | ok
  | fail (e : ErrorName)
  deriving DecidableEq, Repr

/-- The bytes a frame of type `t` carries for `(o, i)`, and the checks before the frame is built, in the order of R190 and
R235. -/
def payloadFor (t : FrameType) (o : ObjId) (i : InstId) (c : Catalog) : Except ErrorName (List Byte) :=
  if t.carriesPayload then
    match c.lookupInstance o i with
    | none => .error .unknownObject
    | some x =>
      if x.kind ≠ .dataInstance then .error .castError
      else
        match x.pack with
        | none => .error .transmitFailure
        | some p => .ok p
  else .ok []

/-- The frame `TRANSMIT_SINGLE` presents to the sink, or the error before that. -/
def frameFor (t : FrameType) (o : ObjId) (i : InstId) (c : Catalog) : Except ErrorName (List Byte) :=
  match payloadFor t o i c with
  | .error e => .error e
  | .ok p => buildFrame t o i p

/-- The label `failed(E)` of R190. -/
def failTx (e : ErrorName) (s : State) : State × SendResult := (raiseTx e s, .fail e)

/-- `TRANSMIT_SINGLE(T, o, i)` (R190). -/
def transmitSingle (t : FrameType) (o : ObjId) (i : InstId) (s : State) : State × SendResult :=
  match frameFor t o i s.env.catalog with
  | .error e => failTx e s
  | .ok f =>
    if s.env.sink.answer then (countTxFrame f.length (sinkWrite f s), .ok)
    else failTx .transmitFailure (sinkWrite f s)

/-- `SEND_ALL` over the ids in order (R193): the first failure ends it, "frames already sent stay sent". -/
def sendEach (t : FrameType) (o : ObjId) (ids : List InstId) (s : State) : State × SendResult :=
  match ids with
  | [] => (s, .ok)
  | j :: rest =>
    match transmitSingle t o j s with
    | (s', .ok) => sendEach t o rest s'
    | (s', .fail e) => (s', .fail e)

/-- `SEND_ALL(T, o)` (R193): every instance the catalog lists, descending. -/
def sendAll (t : FrameType) (o : ObjId) (s : State) : State × SendResult :=
  sendEach t o (s.env.catalog.instanceIds o) s

/-- `NORMALIZE(o, inst, all)` (R191); `none` is `fail(UnknownObject)`. -/
def normalize (c : Catalog) (o : ObjId) (i : InstId) (all : Bool) : Option (InstId × Bool) :=
  match c.lookup o with
  | none => none
  | some m =>
    if all then (if m.singleInstance then some (0, false) else some (Config.allInstances, true)) else some (i, false)

/-- `SEND_OBJECT`, also under the name `SEND_OBJECT_INTERNAL` (R192, D15): normalize, check capacity, transmit, open. -/
def sendObject (o : ObjId) (i : InstId) (acked all : Bool) (s : State) : State × SendResult :=
  match normalize s.env.catalog o i all with
  | none => failTx .unknownObject s
  | some (i', all') =>
    if acked && !s.txn.canOpen s.params.txnDepth o i' then (s, .fail .tableFull)
    else
      let t : FrameType := if acked then .objAck else .obj
      match (if all' then sendAll t o s else transmitSingle t o i' s) with
      | (s', .fail e) => (s', .fail e)
      | (s', .ok) => (if acked then openTxn o i' .ack s' else s', .ok)

/-- `SEND_REQUEST` (R194, D15): one frame, and the transaction is opened after it was accepted. -/
def sendRequest (o : ObjId) (i : InstId) (all : Bool) (s : State) : State × SendResult :=
  match normalize s.env.catalog o i all with
  | none => failTx .unknownObject s
  | some (i', _) =>
    if !s.txn.canOpen s.params.txnDepth o i' then (s, .fail .tableFull)
    else
      match transmitSingle .objReq o i' s with
      | (s', .fail e) => (s', .fail e)
      | (s', .ok) => (openTxn o i' .obj s', .ok)

/-- The result of a send as `P_HOST` returns it (R87). -/
def SendResult.toHost : SendResult → HostResult
  | .ok => .ok
  | .fail e => .fail e

/-- Return the result of a send to the host (R58). -/
def returnSend (r : State × SendResult) : State := emit (.result r.2.toHost) r.1

end Sys2Proof.Machine
end

