-- ==== Sys2Proof/Machine/Frames.lean ====
section
/-! DEFINITION. Unit U_DSP: the five received frame types (44_dispatch.md R170 to R177). A branch answers the state and the
dispatch status; the meaning of the instruction adds the counter and the outcome of R136. -/

namespace Sys2Proof.Machine

/-- `UPDATE_OBJECT(o, i, p)` (R171); the status is `false` on `CastError`, and then unpack was not called. -/
def updateObject (o : ObjId) (i : InstId) (p : List Byte) (s : State) : State × Bool :=
  let (s', x) :=
    match s.env.catalog.lookupInstance o i with
    | some x => (s, x)
    | none => createInstance o i s
  if x.kind ≠ .dataInstance then (emit (.raised .castError) s', false) else (unpackInto o i x p s', true)

/-- A received reply of kind `kind` closes the transaction it finds, when that is closable (R172, R175, R158). -/
def replyReceived (kind : Resp) (o : ObjId) (i : InstId) (s : State) : State :=
  match s.txn.find o i with
  | none => s
  | some k => if s.txn.closable k kind i then closeSuccess k s else s

/-- "illegal if all-instances" (R225, D27): labelled, status 0, no other effect. -/
def illegalFrame (s : State) : State × Bool := (emit (.raised .illegalAllInstances) s, false)

/-- Received `OBJ` (R172). -/
def dispatchObj (o : ObjId) (i : InstId) (p : List Byte) (s : State) : State × Bool :=
  if i = Config.allInstances then illegalFrame s
  else
    match updateObject o i p s with
    | (s', false) => (s', false)
    | (s', true) => (replyReceived .obj o i s', true)

/-- Received `OBJ_ACK` (R173, D18): the Ack goes out whether or not the update succeeded. -/
def dispatchObjAck (o : ObjId) (i : InstId) (p : List Byte) (s : State) : State × Bool :=
  if i = Config.allInstances then illegalFrame s
  else
    match updateObject o i p s with
    | (s', ok) => ((transmitSingle .ack o i s').1, ok)

/-- Whether the target of a request is resolved (R174): the instance exists and can be packed. -/
def targetResolved (c : Catalog) (o : ObjId) (j : InstId) : Bool :=
  match c.lookupInstance o j with
  | none => false
  | some x => x.kind = .dataInstance

/-- "the base object if all-instances, else the exact instance" (R174, D19). -/
def requestTarget (i : InstId) : InstId := if i = Config.allInstances then 0 else i

/-- Received `OBJ_REQ` (R174): the object goes back, or a Nack that keeps the request's instance id. -/
def dispatchObjReq (o : ObjId) (i : InstId) (s : State) : State × Bool :=
  if targetResolved s.env.catalog o (requestTarget i) then
    match sendObject o (requestTarget i) false (i = Config.allInstances) s with
    | (s', .ok) => (s', true)
    | (s', .fail _) => ((transmitSingle .nack o i s').1, true)
  else ((transmitSingle .nack o i s).1, false)

/-- Received `ACK` (R175). -/
def dispatchAck (o : ObjId) (i : InstId) (s : State) : State × Bool :=
  if i = Config.allInstances then illegalFrame s else (replyReceived .ack o i s, true)

/-- Received `NACK` (R176): closes what it finds, through the success channel. -/
def dispatchNack (o : ObjId) (i : InstId) (s : State) : State × Bool :=
  match s.txn.find o i with
  | none => (s, true)
  | some k => (closeSuccess k s, true)

/-- `DISPATCH(T, o, i, p)` (R170): one branch per frame type. -/
def dispatch (t : FrameType) (o : ObjId) (i : InstId) (p : List Byte) (s : State) : State × Bool :=
  match t with
  | .obj => dispatchObj o i p s
  | .objReq => dispatchObjReq o i s
  | .objAck => dispatchObjAck o i p s
  | .ack => dispatchAck o i s
  | .nack => dispatchNack o i s

/-- The meaning of `OBJ` (R172, R136). -/
def execObj (o : ObjId) (i : InstId) (p : List Byte) (s : State) : Host.Outcome State Fault Refusal :=
  .next (finishFrame .obj o i p (dispatchObj o i p s))

/-- The meaning of `OBJ_REQ` (R174, R136). -/
def execObjReq (o : ObjId) (i : InstId) (s : State) : Host.Outcome State Fault Refusal :=
  .next (finishFrame .objReq o i [] (dispatchObjReq o i s))

/-- The meaning of `OBJ_ACK` (R173, R136). -/
def execObjAck (o : ObjId) (i : InstId) (p : List Byte) (s : State) : Host.Outcome State Fault Refusal :=
  .next (finishFrame .objAck o i p (dispatchObjAck o i p s))

/-- The meaning of `ACK` (R175, R136). -/
def execAck (o : ObjId) (i : InstId) (s : State) : Host.Outcome State Fault Refusal :=
  .next (finishFrame .ack o i [] (dispatchAck o i s))

/-- The meaning of `NACK` (R176, R136). -/
def execNack (o : ObjId) (i : InstId) (s : State) : Host.Outcome State Fault Refusal :=
  .next (finishFrame .nack o i [] (dispatchNack o i s))

end Sys2Proof.Machine
end

