-- ==== Sys2Proof/Machine/Receive.lean ====
section
/-! DEFINITION. Unit U_RX: `FEED_BYTE`, one definition per state of the receive machine (42_rx_fsm.md R120 to R136). -/

namespace Sys2Proof.Machine

/-- A header or payload byte is folded into the CRC and counted: the first two lines of R123 to R126 and R128. -/
def Rx.fold (b : Byte) (r : Rx) : Rx := { r with crc := crc8Update r.crc b, pktlen := r.pktlen + 1 }

/-- State `Sync` (R122, D25). -/
def rxSync (b : Byte) (s : State) : State :=
  if b = Config.syncVal then
    { s with rx := { s.rx with crc := crc8Update Config.crcInit Config.syncVal, pktlen := 1, count := 0, state := .type } }
  else rejectToSync .badSync s

/-- State `Type` (R123, D6, D31). -/
def rxType (b : Byte) (s : State) : State :=
  if (FrameType.ofByte b).isSome then
    { s with rx := { s.rx.fold b with type := b, count := 0, state := .size } }
  else rejectToSync .badVersion { s with rx := s.rx.fold b }

/-- State `Size` (R124). -/
def rxSize (b : Byte) (s : State) : State :=
  if s.rx.count = 0 then { s with rx := { s.rx.fold b with size := b.setWidth 16, count := 1 } }
  else
    let size := putHigh s.rx.size b
    let s' := { s with rx := { s.rx.fold b with size := size, count := 0 } }
    if size.toNat < Config.sizeMin ∨ Config.sizeMax < size.toNat then enterError .badSize s'
    else setRxState .objectId s'

/-- The object id after one more byte (R125): the first byte replaces it, a later one is put above. -/
def nextObjid (r : Rx) (b : Byte) : ObjId :=
  if r.count = 0 then b.setWidth 32 else putByte r.objid r.count.toNat b

/-- State `ObjectId` (R125). -/
def rxObjectId (b : Byte) (s : State) : State :=
  if s.rx.count + 1 = 4 then
    { s with rx := { s.rx.fold b with objid := nextObjid s.rx b, count := 0, state := .instanceId } }
  else { s with rx := { s.rx.fold b with objid := nextObjid s.rx b, count := s.rx.count + 1 } }

/-- The expected payload length `e` of R127: none for the control types, else the object's size. -/
def expectedLength (type : Byte) (m : ObjectMeta) : Nat :=
  if type = 0x21 ∨ type = 0x23 ∨ type = 0x24 then 0 else m.fixedSize

/-- Payload length discovery (R127, R235), after the instance id is complete. -/
def rxDiscover (s : State) : State :=
  match s.env.catalog.lookup s.rx.objid with
  | none => enterError .unknownObject s
  | some m =>
    let s' := { s with rx := { s.rx with objMeta := some m } }
    let e := expectedLength s.rx.type m
    if Config.maxPayload < e then enterError .payloadTooLarge s'
    else if Config.headerLen + e ≠ s.rx.size.toNat then enterError .lengthMismatch s'
    else
      { s' with rx := { s'.rx with
          expected := BitVec.ofNat 8 e
          state := if 0 < e then .data else .checksum } }

/-- State `InstanceId` (R126, R127). -/
def rxInstanceId (b : Byte) (s : State) : State :=
  if s.rx.count = 0 then { s with rx := { s.rx.fold b with instid := b.setWidth 16, count := 1 } }
  else rxDiscover { s with rx := { s.rx.fold b with instid := putHigh s.rx.instid b, count := 0 } }

/-- State `Data` (R128). -/
def rxData (b : Byte) (s : State) : State :=
  let r := { s.rx.fold b with
    buf := Memory.write s.rx.count.toNat b s.rx.buf
    count := s.rx.count + 1 }
  if s.rx.count + 1 = s.rx.expected then { s with rx := { r with state := .checksum } } else { s with rx := r }

/-- State `Checksum` (R129, R235), before dispatch. -/
def rxChecksum (b : Byte) (s : State) : State :=
  let s' := { s with rx := { s.rx with pktlen := s.rx.pktlen + 1 } }
  if b ≠ s.rx.crc then enterError .badChecksum s'
  else if s'.rx.pktlen.toNat ≠ s.rx.size.toNat + 1 then enterError .byteCount s'
  else setRxState .complete s'

/-- Completion (R136): dispatch by the type register, counter, outcome. -/
def completeFrame (s : State) : Host.Outcome State Fault Refusal :=
  match FrameType.ofByte s.rx.type with
  | none => .fault .noDispatchRule
  | some t =>
    .next (finishFrame t s.rx.objid s.rx.instid s.rx.payload (dispatch t s.rx.objid s.rx.instid s.rx.payload s))

/-- The state rule of R122 to R129 for the state the byte is examined in. -/
def feedInState (b : Byte) (s : State) : Host.Outcome State Fault Refusal :=
  match s.rx.state with
  | .sync => .next (returnOutcome (rxSync b s))
  | .type => .next (returnOutcome (rxType b s))
  | .size => .next (returnOutcome (rxSize b s))
  | .objectId => .next (returnOutcome (rxObjectId b s))
  | .instanceId => .next (returnOutcome (rxInstanceId b s))
  | .data => if s.rx.count = 255 then .fault .bufferIndex else .next (returnOutcome (rxData b s))
  | .checksum =>
    if (rxChecksum b s).rx.state = .complete then completeFrame (rxChecksum b s)
    else .next (returnOutcome (rxChecksum b s))
  | .complete => .next (returnOutcome (rxSync b s))
  | .error => .next (returnOutcome (rxSync b s))

/-- `FEED_BYTE` (R120): the prologue, the rule of the state, and the outcome. -/
def execFeedByte (b : Byte) (s : State) : Host.Outcome State Fault Refusal := feedInState b (beginByte s)

end Sys2Proof.Machine
end

