-- ==== Sys2Proof/Machine/Send.lean ====
section
/-! DEFINITION. The sends of the host: `SEND_OBJECT` and `SEND_REQUEST` (45_transmit.md R192, R194). -/

namespace Sys2Proof.Machine

/-- The meaning of `SEND_OBJECT` (R192). -/
def execSendObject (o : ObjId) (i : InstId) (acked all : Bool) (s : State) : Host.Outcome State Fault Refusal :=
  .next (returnSend (sendObject o i acked all s))

/-- The meaning of `SEND_REQUEST` (R194). -/
def execSendRequest (o : ObjId) (i : InstId) (all : Bool) (s : State) : Host.Outcome State Fault Refusal :=
  .next (returnSend (sendRequest o i all s))

end Sys2Proof.Machine
end

