-- ==== Sys2Proof/Machine/System.lean ====
section
/-! DEFINITION. The system operations: `CANCEL_TRANSACTION` (43_txn_table.md R157), `STATS_RESET` and `STATS_READ`
(46_stats_system.md R213, R214). -/

namespace Sys2Proof.Machine

/-- The meaning of `CANCEL_TRANSACTION` (R157, D26). -/
def execCancelTransaction (o : ObjId) (i : InstId) (s : State) : Host.Outcome State Fault Refusal :=
  match s.txn.find o i with
  | none => .next (emit (.result (.found false)) s)
  | some k => .next (emit (.result (.found true)) (closeFailure k s))

/-- The meaning of `STATS_RESET` (R213). It has no result (R85). -/
def execStatsReset (s : State) : Host.Outcome State Fault Refusal := .next { s with stats := Stats.zero }

/-- The meaning of `STATS_READ` (R214). -/
def execStatsRead (s : State) : Host.Outcome State Fault Refusal := .next (emit (.stats s.stats) s)

end Sys2Proof.Machine
end

