-- ==== Sys2Proof/Machine/Dispatch.lean ====
section
/-! DEFINITION. The meaning of every instruction, one arm each. -/

namespace Sys2Proof.Machine

def exec (i : Instr) (s : State) : Host.Outcome State Fault Refusal :=
  match i with
  | .obj o n p => Sys2Proof.Machine.execObj o n p s
  | .objReq o n => Sys2Proof.Machine.execObjReq o n s
  | .objAck o n p => Sys2Proof.Machine.execObjAck o n p s
  | .ack o n => Sys2Proof.Machine.execAck o n s
  | .nack o n => Sys2Proof.Machine.execNack o n s
  | .crc8Update c b => Sys2Proof.Machine.execCrc8Update c b s
  | .crc8UpdateMany c data => Sys2Proof.Machine.execCrc8UpdateMany c data s
  | .buildFrame t o n data => Sys2Proof.Machine.execBuildFrame t o n data s
  | .feedByte b => Sys2Proof.Machine.execFeedByte b s
  | .sendObject o n acked all => Sys2Proof.Machine.execSendObject o n acked all s
  | .sendRequest o n all => Sys2Proof.Machine.execSendRequest o n all s
  | .cancelTransaction o n => Sys2Proof.Machine.execCancelTransaction o n s
  | .statsReset => Sys2Proof.Machine.execStatsReset s
  | .statsRead => Sys2Proof.Machine.execStatsRead s

end Sys2Proof.Machine
end

