-- ==== Sys2Proof/Machine/Fetch.lean ====
section
/-! DEFINITION. What the next step is: the next arrival, decoded (30_encoding.md R80, R85; log 2, log 6, log 17), and where a
given instruction is put so that it is next. -/

namespace Sys2Proof.Machine

/-- What the head of the inbox asks for. -/
inductive Fetched where
  /-- Nothing has arrived: the block is idle (R249, R260). -/
  | idle
  /-- A host operation, and the state with the arrival taken off. -/
  | instr (i : Instr) (s : State)
  /-- An event from outside that is no operation, and the state after it. -/
  | event (s : State)
  /-- Bytes the ports cannot carry. -/
  | reject (r : Refusal)
  deriving DecidableEq, Repr

/-- Whether an instruction is a frame row: such a one is reached through `FEED_BYTE` alone (R57, R136). -/
def isFrame : Instr → Bool
  | .obj _ _ _ => true
  | .objReq _ _ => true
  | .objAck _ _ _ => true
  | .ack _ _ => true
  | .nack _ _ => true
  | .crc8Update _ _ => false
  | .crc8UpdateMany _ _ => false
  | .buildFrame _ _ _ _ => false
  | .feedByte _ => false
  | .sendObject _ _ _ _ => false
  | .sendRequest _ _ _ => false
  | .cancelTransaction _ _ => false
  | .statsReset => false
  | .statsRead => false

/-- Fetch and decode the next arrival. -/
def fetch (s : State) : Fetched :=
  match s.inbox with
  | [] => .idle
  | .reset :: rest => .event { resetBlock s with inbox := rest }
  | .environment e :: rest => .event { s with env := e, inbox := rest }
  | .op bytes :: rest =>
    match decode bytes with
    | .error e => .reject (.undecodable e)
    | .ok i => if isFrame i then .reject .frameAsOperation else .instr i { s with inbox := rest }

/-- The receive registers just before the checksum byte of a frame given by its fields: what R122 to R128 leave when the
frame's other bytes are fed, but for `rx_meta`, which no rule reads (R30). -/
def rxBeforeChecksum (r : Rx) (ty : Byte) (len : Half) (o : ObjId) (i : InstId) (p : List Byte) : Rx :=
  { r with
    state := .checksum
    crc := crc8 (frameHeader ty len o i ++ p)
    type := ty
    size := len
    objid := o
    instid := i
    count := BitVec.ofNat 8 p.length
    expected := BitVec.ofNat 8 p.length
    pktlen := BitVec.ofNat 9 (Config.headerLen + p.length)
    buf := r.buf.writeAll 0 p }

/-- The instruction whose bytes are given, put where it runs next: a host operation becomes the next arrival; a wire frame
stands in the receive registers up to its checksum byte, and that byte is the next arrival (log 6). -/
def placeNext (bytes : List Byte) (s : State) : State :=
  match bytes with
  | b0 :: ty :: l0 :: l1 :: o0 :: o1 :: o2 :: o3 :: i0 :: i1 :: c :: tail =>
    if b0 = Config.syncVal then
      { s with
        rx := rxBeforeChecksum s.rx ty (join16 l0 l1) (join32 o0 o1 o2 o3) (join16 i0 i1) (c :: tail).dropLast
        inbox := .op (encode (.feedByte ((c :: tail).getLastD 0))) :: s.inbox }
    else { s with inbox := .op bytes :: s.inbox }
  | _ => { s with inbox := .op bytes :: s.inbox }

end Sys2Proof.Machine
end

