-- ==== Sys2Proof/Machine/Step.lean ====
section
/-! DEFINITION. One step: take the next arrival and do it whole (00_scope.md R8, D3). -/

namespace Sys2Proof.Machine

/-- A step of the machine. With nothing to do it is idle and nothing changes (R249). -/
def step (s : State) : Host.Outcome State Fault Refusal :=
  match fetch s with
  | .idle => .next s
  | .instr i s' => exec i s'
  | .event s' => .next s'
  | .reject r => .refused r

/-- `s` with the instruction of a table word put where the next step runs it (log 6). -/
def State.withFetchWord (s : State) (nbits w : Nat) : State := placeNext (tableBytes nbits w) s

end Sys2Proof.Machine
end

