-- ==== Sys2Proof/Safety.lean ====
section
/-! DEFINITION. What counts as a safe state, and the terms the statements use: the invariants of 10_state.md R34 and R39,
what a step puts out, and a run of `FEED_BYTE` steps. -/

namespace Sys2Proof.Machine

/-! The invariant. -/

/-- The bytes of the frame in progress consumed so far, read back from the registers they went to (R39): header fields and
payload, cut at `rx_pktlen`. -/
def Rx.consumed (r : Rx) : List Byte :=
  (frameHeader r.type r.size r.objid r.instid ++ r.buf.firstBytes r.count.toNat).take r.pktlen.toNat

/-- The accumulator is the CRC of the bytes consumed (R22, R39). -/
def Rx.crcAgrees (r : Rx) : Bool := r.crc = crc8 r.consumed

/-- The type register holds one of the five type bytes (R23). -/
def Rx.typeLegal (r : Rx) : Bool := (FrameType.ofByte r.type).isSome

/-- Whether the frame type in the register carries a payload (R77). -/
def Rx.carriesPayload (r : Rx) : Bool :=
  match FrameType.ofByte r.type with
  | some t => t.carriesPayload
  | none => false

/-- The length field passed the check of state `Size` (R124). -/
def Rx.sizeLegal (r : Rx) : Bool := Config.sizeMin ≤ r.size.toNat && r.size.toNat ≤ Config.sizeMax

/-- What R39 says of each state of the receive machine, and what makes it inductive: a field half assembled has no bits yet
where its later bytes go, and a control frame expects no payload. -/
def Rx.inv (r : Rx) : Bool :=
  match r.state with
  | .sync => true
  | .type => r.pktlen = 1 && r.crc = 0xB4 && r.count = 0 && r.crcAgrees
  | .size =>
    r.pktlen.toNat = 2 + r.count.toNat && r.count.toNat < 2 && (r.count = 0 || r.size.toNat < 256) && r.typeLegal &&
      r.crcAgrees
  | .objectId =>
    r.pktlen.toNat = 4 + r.count.toNat && r.count.toNat < 4 && (r.count = 0 || r.objid.toNat < 256 ^ r.count.toNat) &&
      r.sizeLegal && r.typeLegal && r.crcAgrees
  | .instanceId =>
    r.pktlen.toNat = 8 + r.count.toNat && r.count.toNat < 2 && (r.count = 0 || r.instid.toNat < 256) &&
      r.sizeLegal && r.typeLegal && r.crcAgrees
  | .data =>
    r.pktlen.toNat = 10 + r.count.toNat && r.count.toNat < r.expected.toNat && r.size.toNat = 10 + r.expected.toNat &&
      r.carriesPayload && r.typeLegal && r.crcAgrees
  | .checksum =>
    r.pktlen.toNat = 10 + r.expected.toNat && r.count = r.expected && r.size.toNat = 10 + r.expected.toNat &&
      (r.carriesPayload || r.expected = 0) && r.typeLegal && r.crcAgrees
  | .complete =>
    r.pktlen.toNat = 11 + r.expected.toNat && r.count = r.expected && r.size.toNat = 10 + r.expected.toNat &&
      (r.carriesPayload || r.expected = 0) && r.typeLegal
  | .error => true

/-- A counter value of `STAT_W` bits (R35, R212). -/
def withinWidth (w : Config.Limit) (c : Nat) : Bool :=
  match w with
  | .unbounded => true
  | .finite k => c ≤ 2 ^ (k + 1) - 1

/-- All six counters are of `STAT_W` bits. -/
def Stats.within (w : Config.Limit) (st : Stats) : Bool :=
  withinWidth w st.txBytes && withinWidth w st.txObjects && withinWidth w st.txErrors &&
    withinWidth w st.rxBytes && withinWidth w st.rxObjects && withinWidth w st.rxErrors

/-- At most `TXN_DEPTH` keys (R33). -/
def TxnTable.fits (depth : Config.Limit) (t : TxnTable) : Bool :=
  match depth with
  | .unbounded => true
  | .finite k => t.length ≤ k + 1

/-- The invariant of the machine: R39 for the receive registers, the canonical form of the buffer, one transaction per key
and at most `TXN_DEPTH` of them (R33, R34), and counters of `STAT_W` bits (R35). -/
def State.inv (s : State) : Bool :=
  s.rx.inv && s.rx.buf.wf && s.txn.wf && s.txn.fits s.params.txnDepth && s.stats.within s.params.statW

/-! What is put out. -/

/-- A transaction notification (R231). -/
def PortEvent.isNote : PortEvent → Bool
  | .tx _ _ => false
  | .outcome _ => false
  | .success _ _ => true
  | .failure _ _ => true
  | .result _ => false
  | .stats _ => false
  | .create _ _ => false
  | .unpack _ _ _ => false
  | .raised _ => false

/-- A change the block makes to the catalog (R36: "only through `Cat.create_instance` and `h.unpack`"). -/
def PortEvent.isCatalogChange : PortEvent → Bool
  | .tx _ _ => false
  | .outcome _ => false
  | .success _ _ => false
  | .failure _ _ => false
  | .result _ => false
  | .stats _ => false
  | .create _ _ => true
  | .unpack _ _ _ => true
  | .raised _ => false

/-- A frame presented to the sink (R56). -/
def PortEvent.isTx : PortEvent → Bool
  | .tx _ _ => true
  | .outcome _ => false
  | .success _ _ => false
  | .failure _ _ => false
  | .result _ => false
  | .stats _ => false
  | .create _ _ => false
  | .unpack _ _ _ => false
  | .raised _ => false

/-- The sink accepts the next `n` writes (R56). -/
def Sink.acceptsNext (k : Sink) : Nat → Bool
  | 0 => true
  | n + 1 => k.answer && Sink.acceptsNext k.advance n

/-- The sink after `n` writes (R56). -/
def Sink.afterWrites (k : Sink) : Nat → Sink
  | 0 => k
  | n + 1 => Sink.afterWrites k.advance n

/-- Each counter of `a` is at most that of `b`. -/
def Stats.le (a b : Stats) : Prop :=
  a.txBytes ≤ b.txBytes ∧ a.txObjects ≤ b.txObjects ∧ a.txErrors ≤ b.txErrors ∧
    a.rxBytes ≤ b.rxBytes ∧ a.rxObjects ≤ b.rxObjects ∧ a.rxErrors ≤ b.rxErrors

/-! What a `FEED_BYTE` step that completes no frame leaves (R121, R132, R211, R236). -/

/-- The counters after a byte that raised no error. -/
def State.fedStats (s : State) : Stats :=
  { s.stats with rxBytes := satInc s.params.statW s.stats.rxBytes 1 }

/-- The counters after a byte that raised an error. -/
def State.fedErrorStats (s : State) : Stats :=
  { s.stats with
    rxBytes := satInc s.params.statW s.stats.rxBytes 1
    rxErrors := satInc s.params.statW s.stats.rxErrors 1 }

/-- The state after a byte that "became part of a frame still in progress": registers `r`, one byte counted, `AwaitingMore`,
and nothing else changed. -/
def State.awaiting (s : State) (r : Rx) : State :=
  { s with rx := r, stats := s.fedStats, out := s.out ++ [.outcome .awaitingMore] }

/-- The state after a byte that was discarded with error `e`: registers `r`, one byte and one error counted, `Discarded`, and
nothing else changed. -/
def State.discarding (s : State) (r : Rx) (e : ErrorName) : State :=
  { s with rx := r, stats := s.fedErrorStats, out := s.out ++ [.raised e, .outcome .discarded] }

/-! What one transmission adds (R190). -/

/-- The counters after a frame of `n` bytes was sent. -/
def Stats.sent (w : Config.Limit) (n : Nat) (st : Stats) : Stats :=
  { st with txBytes := satInc w st.txBytes n, txObjects := satInc w st.txObjects 1 }

/-- The counters after a failed transmission. -/
def Stats.failedTx (w : Config.Limit) (st : Stats) : Stats := { st with txErrors := satInc w st.txErrors 1 }

/-- The counters after a frame whose dispatch answered `ok` (R136). -/
def Stats.dispatched (w : Config.Limit) (ok : Bool) (st : Stats) : Stats :=
  if ok then { st with rxObjects := satInc w st.rxObjects 1 } else { st with rxErrors := satInc w st.rxErrors 1 }

/-- The environment after one write to the sink (R56). -/
def Env.wrote (e : Env) : Env := { e with sink := e.sink.advance }

/-- The instance `(o, i)` exists, is a `DataInstance`, packs, and holds `p`, at most 255 bytes: what can be sent (R190). -/
def Catalog.sendable (c : Catalog) (o : ObjId) (i : InstId) (p : List Byte) : Prop :=
  ∃ x, c.lookupInstance o i = some x ∧ x.kind = .dataInstance ∧ x.packs = true ∧ x.bytes = p ∧ p.length ≤ 255

/-- After `n` accepted writes the frame of type `t` for instance `j` cannot be sent, with error `e` (R190, R235): the catalog or
the framer fails and nothing is presented, or the sink rejects the frame. `lost` is what is presented. -/
def Env.failsAt (env : Env) (t : FrameType) (o : ObjId) (n : Nat) (j : InstId) (e : ErrorName) (lost : List PortEvent) :
    Prop :=
  (∃ x, env.catalog.lookupInstance o j = some x ∧ lost = [] ∧
    ((x.kind = .metadata ∧ e = .castError) ∨ (x.kind = .dataInstance ∧ x.packs = false ∧ e = .transmitFailure) ∨
      (x.kind = .dataInstance ∧ x.packs = true ∧ 256 ≤ x.bytes.length ∧ e = .payloadTooLarge))) ∨
  ∃ p, env.catalog.sendable o j p ∧ (env.sink.afterWrites n).answer = false ∧ e = .transmitFailure ∧
    lost = [.tx (frameBytes t o j p) false]

/-- The state after a frame without payload was presented, accepted or rejected as the sink answers (R190, R56). -/
def State.afterControl (t : FrameType) (o : ObjId) (i : InstId) (s : State) : State :=
  if s.env.sink.answer then
    { s with
      env := s.env.wrote
      stats := s.stats.sent s.params.statW 11
      out := s.out ++ [.tx (frameBytes t o i []) true] }
  else
    { s with
      env := s.env.wrote
      stats := s.stats.failedTx s.params.statW
      out := s.out ++ [.tx (frameBytes t o i []) false, .raised .transmitFailure] }

/-- The state after a received frame is reported with its dispatch status (R136, R170): one counter, then the outcome. -/
def State.reported (t : FrameType) (o : ObjId) (i : InstId) (p : List Byte) (ok : Bool) (s : State) : State :=
  { s with
    stats := s.stats.dispatched s.params.statW ok
    out := s.out ++ [.outcome (.framedOk t o i p ok)] }

/-! Runs of the receive machine. -/

/-- The bytes fed one by one, one `FEED_BYTE` step each (R88, `RX`), stopping at the first stop. -/
def feedAll (bytes : List Byte) (s : State) : Host.Outcome State Fault Refusal :=
  match bytes with
  | [] => .next s
  | b :: rest =>
    match exec (.feedByte b) s with
    | .next t => feedAll rest t
    | .fault f => .fault f
    | .refused r => .refused r

/-- The catalog knows object `o` as a frame of type `t` with `n` payload bytes needs it (R111, R127). -/
def Catalog.expects (c : Catalog) (t : FrameType) (o : ObjId) (n : Nat) : Prop :=
  ∃ m, c.lookup o = some m ∧ if t.carriesPayload then m.fixedSize = n else n = 0

end Sys2Proof.Machine

namespace Sys2Proof

/-- The one instruction that notifies failure instead of success (R157, R231). -/
def Instr.isCancel : Instr → Bool
  | .obj _ _ _ => false
  | .objReq _ _ => false
  | .objAck _ _ _ => false
  | .ack _ _ => false
  | .nack _ _ => false
  | .crc8Update _ _ => false
  | .crc8UpdateMany _ _ => false
  | .buildFrame _ _ _ _ => false
  | .feedByte _ => false
  | .sendObject _ _ _ _ => false
  | .sendRequest _ _ _ => false
  | .cancelTransaction _ _ => true
  | .statsReset => false
  | .statsRead => false

end Sys2Proof
end

