-- ==== Sys2Proof/Certificates/Slice0/Obligations.lean ====
section
/-! DEFINITION. The statements for the provers. Each docstring names the rule of spec/ it formalises, and the spec's own
decisions D<n> (92_eei_decisions.md) or the model's choices (log <n>) it rests on. Everywhere: the environment, the arrivals
and what is put out stand in fields of the model's own (log 1, 2, 3), and the error names put out are labels (log 9). -/

open Sys2Proof Sys2Proof.Machine

/-! Encoding. -/

/-- Every well-formed instruction is read back from its own bytes (R70, R79, R85, R86; host layout: log 4). -/
def Obligations.DecodeOfEncode : Prop :=
  ∀ i : Instr, i.wellFormed = true → decode (encode i) = .ok i

/-- Bytes that decode are exactly the encoding of what they decode to: no bit is dropped, no two instructions share bytes. -/
def Obligations.EncodeOfDecode : Prop :=
  ∀ (bytes : List Byte) (i : Instr), decode bytes = .ok i → encode i = bytes ∧ i.wellFormed = true

/-- Frames printed by the spec, byte by byte, are the frames they are printed for (S1, P5, P10, B6, R176), and host words
with the codes of R85 are their operations. -/
def Obligations.SpecWordsDecode : Prop :=
  decode [0x3C, 0x21, 0x0A, 0x00, 0x01, 0x00, 0x00, 0x00, 0x00, 0x00, 0xBC] = .ok (.objReq 1 0) ∧
  decode [0x3C, 0x23, 0x0A, 0x00, 0x07, 0x00, 0x00, 0x00, 0x05, 0x00, 0xF9] = .ok (.ack 7 5) ∧
  decode [0x3C, 0x24, 0x0A, 0x00, 0x01, 0x00, 0x00, 0x00, 0xFF, 0xFF, 0x02] = .ok (.nack 1 0xFFFF) ∧
  decode [0x3C, 0x20, 0x0E, 0x00, 0xEF, 0xBE, 0xAD, 0xDE, 0x02, 0x01, 0x01, 0x02, 0x03, 0x04, 0xD3] =
    .ok (.obj 0xDEADBEEF 0x0102 [1, 2, 3, 4]) ∧
  decode [0x3C, 0x22, 0x0C, 0x00, 0x08, 0x00, 0x00, 0x00, 0x00, 0x00, 0xDE, 0xAD, 0x48] =
    .ok (.objAck 8 0 [0xDE, 0xAD]) ∧
  decode [0, 0xAB, 0xCD] = .ok (.crc8Update 0xAB 0xCD) ∧ decode [3, 0x3C] = .ok (.feedByte 0x3C) ∧
  decode [7] = .ok .statsReset ∧ decode [8] = .ok .statsRead

/-- R81: every type byte other than the five is illegal, whatever the rest of the frame, and the five have `VER = 0b001`
(R73); and no first byte but the sync byte and the codes 0 to 8 of R85 begins an operation (U9, log 17). Of the bytes
`0x25` to `0x27` it is the spec's decision D6. -/
def Obligations.IllegalCodesRejected : Prop :=
  (∀ ty b2 b3 b4 b5 b6 b7 b8 b9 b10 : Byte, ∀ tail : List Byte, ty ∉ ([0x20, 0x21, 0x22, 0x23, 0x24] : List Byte) →
    decode (0x3C :: ty :: b2 :: b3 :: b4 :: b5 :: b6 :: b7 :: b8 :: b9 :: b10 :: tail) = .error (.illegalType ty)) ∧
  (∀ t : FrameType, t.byte >>> 5 = 0b001 ∧ t.byte ∈ ([0x20, 0x21, 0x22, 0x23, 0x24] : List Byte)) ∧
  ∀ (op : Byte) (args : List Byte), 9 ≤ op.toNat → op ≠ 0x3C → decode (op :: args) = .error (.unknownOperation op)

/-- R79: the three fields as unsigned numbers of their bytes, least significant first; the receive machine's byte-by-byte
assembly gives the same; `le16` and `le32` are the inverses. -/
def Obligations.FieldsAreLittleEndian : Prop :=
  (∀ b0 b1 : Byte, (join16 b0 b1).toNat = b0.toNat + 256 * b1.toNat ∧ le16 (join16 b0 b1) = [b0, b1] ∧
    putHigh (b0.setWidth 16) b1 = join16 b0 b1) ∧
  (∀ b0 b1 b2 b3 : Byte,
    (join32 b0 b1 b2 b3).toNat = b0.toNat + 256 * b1.toNat + 65536 * b2.toNat + 16777216 * b3.toNat ∧
    le32 (join32 b0 b1 b2 b3) = [b0, b1, b2, b3] ∧
    putByte (putByte (putByte (b0.setWidth 32) 1 b1) 2 b2) 3 b3 = join32 b0 b1 b2 b3) ∧
  (∀ v : Half, ∃ b0 b1, le16 v = [b0, b1] ∧ join16 b0 b1 = v) ∧
  ∀ v : ObjId, ∃ b0 b1 b2 b3, le32 v = [b0, b1, b2, b3] ∧ join32 b0 b1 b2 b3 = v

/-! Unit U_CRC. -/

/-- R102 against R103: every printed table entry is the value of the eight-turn loop; the single-bit entries; the check
value. The spec gives the table and the loop from general knowledge (log 19). -/
def Obligations.CrcTableIsTheBitSerialLoop : Prop :=
  (∀ i : Byte, crcEntry i = crcBitSerial i) ∧
  [crcEntry 0x01, crcEntry 0x02, crcEntry 0x04, crcEntry 0x08, crcEntry 0x10, crcEntry 0x20, crcEntry 0x40, crcEntry 0x80] =
    ([0x07, 0x0E, 0x1C, 0x38, 0x70, 0xE0, 0xC7, 0x89] : List Byte) ∧
  crc8 [0x31, 0x32, 0x33, 0x34, 0x35, 0x36, 0x37, 0x38, 0x39] = 0xF4

/-- R104 (1), (2): the table is linear and a bijection, and so is the update a bijection in each operand. The spec marks
R104 as derived. -/
def Obligations.CrcTableLinearBijective : Prop :=
  crcEntry 0 = 0 ∧ (∀ a b : Byte, crcEntry (a ^^^ b) = crcEntry a ^^^ crcEntry b) ∧ Function.Bijective crcEntry ∧
    (∀ b : Byte, Function.Bijective fun c => crc8Update c b) ∧ ∀ c : Byte, Function.Bijective fun b => crc8Update c b

/-- R104 (3), (4): a message followed by its own checksum has checksum 0, and any change of one byte, so of any single
bit, changes the checksum. The spec marks R104 as derived. -/
def Obligations.CrcResidueAndDetection : Prop :=
  (∀ s : List Byte, crc8 (s ++ [crc8 s]) = 0) ∧
    ∀ (s t : List Byte) (b b' : Byte), b ≠ b' → crc8 (s ++ b :: t) ≠ crc8 (s ++ b' :: t)

/-- R100: the result is the table entry of `crc ^ byte`; no state of the block changes; the corner cases. -/
def Obligations.Crc8UpdateResult : Prop :=
  (∀ (c b : Byte) (s : State), exec (.crc8Update c b) s =
    .next { s with out := s.out ++ [.result (.crc (crcEntry (c ^^^ b)))] }) ∧
  crc8Update 0 0 = 0 ∧ (∀ c, crc8Update c c = 0) ∧ crc8Update 0 0x3C = 0xB4

/-- R101: the result is the left fold of the update over the data, byte 0 first; no state of the block changes; the empty
sequence; the fold is incremental; the checksum of a message; the worked example with its intermediate accumulators. -/
def Obligations.Crc8UpdateManyResult : Prop :=
  (∀ (c : Byte) (data : List Byte) (s : State), exec (.crc8UpdateMany c data) s =
    .next { s with out := s.out ++ [.result (.crc (data.foldl crc8Update c))] }) ∧
  (∀ c : Byte, crc8UpdateMany c [] = c) ∧
  (∀ (c : Byte) (s t : List Byte), crc8UpdateMany c (s ++ t) = crc8UpdateMany (crc8UpdateMany c s) t) ∧
  (∀ s : List Byte, crc8 s = s.foldl crc8Update 0) ∧
  [0x3C, 0x21, 0x0A, 0x00, 0x01, 0x00, 0x00, 0x00, 0x00, 0x00].scanl crc8Update 0 =
    [0, 0xB4, 0xE2, 0x96, 0xEB, 0x98, 0xC1, 0x49, 0xF8, 0xE6, 0xBC]

/-! Unit U_FRM. -/

/-- R110: the `11 + n` bytes of the frame for up to 255 payload bytes, whatever the type, the ids and the catalog;
`PayloadTooLarge` from 256 on; no state of the block changes either way. -/
def Obligations.BuildFrameResult : Prop :=
  ∀ (t : FrameType) (o : ObjId) (i : InstId) (data : List Byte) (s : State),
    (data.length ≤ 255 → ∃ f, exec (.buildFrame t o i data) s = .next { s with out := s.out ++ [.result (.frame f)] } ∧
      f.length = 11 + data.length ∧
      f = [0x3C, t.byte] ++ le16 (BitVec.ofNat 16 (10 + data.length)) ++ le32 o ++ le16 i ++ data ++
        [([0x3C, t.byte] ++ le16 (BitVec.ofNat 16 (10 + data.length)) ++ le32 o ++ le16 i ++ data).foldl crc8Update 0]) ∧
    (256 ≤ data.length →
      exec (.buildFrame t o i data) s = .next { s with out := s.out ++ [.result (.fail .payloadTooLarge)] })

/-- R54, R70, R74, R78: a frame with `n` payload bytes has `11 + n` bytes, its length field read back is `10 + n`, its payload
stands from offset 10, and its last byte is the checksum of all before it. The checksum of the whole is 0: R104 (3), which
the spec marks as derived. -/
def Obligations.FrameLayout : Prop :=
  ∀ (t : FrameType) (o : ObjId) (i : InstId) (p : List Byte), p.length ≤ 255 →
    (frameBytes t o i p).length = 11 + p.length ∧
    (frameBytes t o i p).take 2 = [0x3C, t.byte] ∧
    (∃ b2 b3, ((frameBytes t o i p).drop 2).take 2 = [b2, b3] ∧ b2.toNat + 256 * b3.toNat = 10 + p.length) ∧
    ((frameBytes t o i p).drop 4).take 6 = le32 o ++ le16 i ∧
    ((frameBytes t o i p).drop 10).take p.length = p ∧
    (frameBytes t o i p).getLast? = some (crc8 (frameBytes t o i p).dropLast) ∧
    crc8 (frameBytes t o i p) = 0

/-! Unit U_RX. -/

/-- R121, R122, R130, R131, R238: in `Sync`, and in `Complete` and `Error`, which become `Sync` first, the sync byte
begins a frame and any other byte is discarded. Decisions D7, D8, D9, D25. -/
def Obligations.FeedByteWhileSearching : Prop :=
  ∀ (b : Byte) (s : State), (s.rx.state = .sync ∨ s.rx.state = .complete ∨ s.rx.state = .error) →
    (b = 0x3C → exec (.feedByte b) s =
      .next (s.awaiting { s.rx with crc := 0xB4, pktlen := 1, count := 0, state := .type })) ∧
    (b ≠ 0x3C → exec (.feedByte b) s = .next (s.discarding { s.rx with state := .sync } .badSync))

/-- R123: state `Type`. Decisions D6 to D9, D31. -/
def Obligations.FeedByteInType : Prop :=
  ∀ (b : Byte) (s : State), s.rx.state = .type →
    (b ∈ ([0x20, 0x21, 0x22, 0x23, 0x24] : List Byte) → exec (.feedByte b) s =
      .next (s.awaiting { s.rx with
        crc := crc8Update s.rx.crc b, pktlen := s.rx.pktlen + 1, type := b, count := 0, state := .size })) ∧
    (b ∉ ([0x20, 0x21, 0x22, 0x23, 0x24] : List Byte) → exec (.feedByte b) s =
      .next (s.discarding { s.rx with
        crc := crc8Update s.rx.crc b, pktlen := s.rx.pktlen + 1, state := .sync } .badVersion))

/-- R124, R236: state `Size`. Counters and outcome: decisions D7 to D9. -/
def Obligations.FeedByteInSize : Prop :=
  ∀ (b : Byte) (s : State), s.rx.state = .size →
    (s.rx.count = 0 → exec (.feedByte b) s =
      .next (s.awaiting { s.rx with
        crc := crc8Update s.rx.crc b, pktlen := s.rx.pktlen + 1, size := b.setWidth 16, count := 1 })) ∧
    ∀ v : Half, v = s.rx.size ||| (b.setWidth 16 <<< 8) → s.rx.count ≠ 0 →
      ((10 ≤ v.toNat ∧ v.toNat ≤ 266) → exec (.feedByte b) s =
        .next (s.awaiting { s.rx with
          crc := crc8Update s.rx.crc b, pktlen := s.rx.pktlen + 1, size := v, count := 0, state := .objectId })) ∧
      ((v.toNat < 10 ∨ 266 < v.toNat) → exec (.feedByte b) s =
        .next (s.discarding { s.rx with
          crc := crc8Update s.rx.crc b, pktlen := s.rx.pktlen + 1, size := v, count := 0, state := .error } .badSize))

/-- R125: state `ObjectId`, for each of its four bytes. Counters and outcome: decisions D7, D9. -/
def Obligations.FeedByteInObjectId : Prop :=
  ∀ (b : Byte) (s : State), s.rx.state = .objectId →
    (s.rx.count = 0 → exec (.feedByte b) s =
      .next (s.awaiting { s.rx with
        crc := crc8Update s.rx.crc b, pktlen := s.rx.pktlen + 1, objid := b.setWidth 32, count := 1 })) ∧
    ((s.rx.count = 1 ∨ s.rx.count = 2) → exec (.feedByte b) s =
      .next (s.awaiting { s.rx with
        crc := crc8Update s.rx.crc b, pktlen := s.rx.pktlen + 1,
        objid := s.rx.objid ||| (b.setWidth 32 <<< (8 * s.rx.count.toNat)), count := s.rx.count + 1 })) ∧
    (s.rx.count = 3 → exec (.feedByte b) s =
      .next (s.awaiting { s.rx with
        crc := crc8Update s.rx.crc b, pktlen := s.rx.pktlen + 1,
        objid := s.rx.objid ||| (b.setWidth 32 <<< 24), count := 0, state := .instanceId }))

/-- R126, R127, R235, R236: state `InstanceId`; after the second byte the object is looked up and the three checks are
made in their order. `e` is the expected length: none for `OBJ_REQ`, `ACK`, `NACK`, else the object's size. Counters and
outcome: decisions D7 to D9. -/
def Obligations.FeedByteInInstanceId : Prop :=
  ∀ (b : Byte) (s : State), s.rx.state = .instanceId →
    (s.rx.count = 0 → exec (.feedByte b) s =
      .next (s.awaiting { s.rx with
        crc := crc8Update s.rx.crc b, pktlen := s.rx.pktlen + 1, instid := b.setWidth 16, count := 1 })) ∧
    ∀ r : Rx, r = { s.rx with
        crc := crc8Update s.rx.crc b, pktlen := s.rx.pktlen + 1,
        instid := s.rx.instid ||| (b.setWidth 16 <<< 8), count := 0 } → s.rx.count ≠ 0 →
      (s.env.catalog.lookup s.rx.objid = none →
        exec (.feedByte b) s = .next (s.discarding { r with state := .error } .unknownObject)) ∧
      ∀ m e, s.env.catalog.lookup s.rx.objid = some m →
        e = (if s.rx.type ∈ ([0x21, 0x23, 0x24] : List Byte) then 0 else m.fixedSize) →
        (256 ≤ e → exec (.feedByte b) s =
          .next (s.discarding { r with objMeta := some m, state := .error } .payloadTooLarge)) ∧
        (e < 256 → 10 + e ≠ s.rx.size.toNat → exec (.feedByte b) s =
          .next (s.discarding { r with objMeta := some m, state := .error } .lengthMismatch)) ∧
        (0 < e → e < 256 → 10 + e = s.rx.size.toNat → exec (.feedByte b) s =
          .next (s.awaiting { r with objMeta := some m, expected := BitVec.ofNat 8 e, state := .data })) ∧
        (e = 0 → 10 = s.rx.size.toNat → exec (.feedByte b) s =
          .next (s.awaiting { r with objMeta := some m, expected := 0, state := .checksum }))

/-- R128, R31: state `Data` writes the byte at index `rx_count` of the buffer and no other byte, and goes on to
`Checksum` exactly after the last one. Two clauses are the model's choice, no rule: that the buffer keeps its canonical form
(log 12), and that at the index 255, which does not exist, the step stops (log 13). Counters and outcome: decisions D7, D9. -/
def Obligations.FeedByteInData : Prop :=
  ∀ (b : Byte) (s : State), s.rx.state = .data →
    (s.rx.count ≠ 255 → ∃ t, exec (.feedByte b) s = .next t ∧
      t = s.awaiting { s.rx with
        crc := crc8Update s.rx.crc b, pktlen := s.rx.pktlen + 1, count := s.rx.count + 1,
        buf := Memory.write s.rx.count.toNat b s.rx.buf,
        state := if s.rx.count + 1 = s.rx.expected then .checksum else .data } ∧
      (s.rx.buf.wf = true → t.rx.buf.read s.rx.count.toNat = b ∧ t.rx.buf.wf = true) ∧
      ∀ a, a ≠ s.rx.count.toNat → t.rx.buf.read a = s.rx.buf.read a) ∧
    (s.rx.count = 255 → exec (.feedByte b) s = .fault .bufferIndex)

/-- R129, R236: state `Checksum` rejects every byte but the accumulated CRC, and then a wrong byte count; nothing is
dispatched and the accumulator is not changed. Counters and outcome: decisions D7 to D9. -/
def Obligations.ChecksumRejects : Prop :=
  ∀ (b : Byte) (s : State), s.rx.state = .checksum →
    (b ≠ s.rx.crc → exec (.feedByte b) s =
      .next (s.discarding { s.rx with pktlen := s.rx.pktlen + 1, state := .error } .badChecksum)) ∧
    (b = s.rx.crc → (s.rx.pktlen + 1).toNat ≠ s.rx.size.toNat + 1 → exec (.feedByte b) s =
      .next (s.discarding { s.rx with pktlen := s.rx.pktlen + 1, state := .error } .byteCount))

/-- R129, R136, R170: a byte that passes both checks completes the frame, and the step is that of the frame's
instruction, decoded from the registers, at the state with `rx_state = Complete` and the byte counted. Where the type
register holds none of the five bytes there is no rule and the step stops (log 14). Decisions D9, D10. -/
def Obligations.CompletedFrameIsDispatched : Prop :=
  ∀ (s : State) (u : State), s.rx.state = .checksum → (s.rx.pktlen + 1).toNat = s.rx.size.toNat + 1 →
    u = { s with rx := { s.rx with pktlen := s.rx.pktlen + 1, state := .complete }, stats := s.fedStats } →
    (∀ t, FrameType.ofByte s.rx.type = some t → (t.carriesPayload = true ∨ s.rx.expected = 0) →
      exec (.feedByte s.rx.crc) s =
        exec (frameInstr t s.rx.objid s.rx.instid (s.rx.buf.firstBytes s.rx.expected.toNat)) u) ∧
    (FrameType.ofByte s.rx.type = none → exec (.feedByte s.rx.crc) s = .fault .noDispatchRule)

/-- R211: every `FEED_BYTE` step puts out one outcome, last; it adds one to `rx_bytes`, and to `rx_objects` and
`rx_errors` what the outcome says: nothing for `AwaitingMore`, one error for `Discarded`, one object or one error for
`FramedOk` by the dispatch status. Decisions D7 to D10, D27. -/
def Obligations.FeedByteCounts : Prop :=
  ∀ (b : Byte) (s t : State), exec (.feedByte b) s = .next t →
    t.stats.rxBytes = satInc s.params.statW s.stats.rxBytes 1 ∧
    ∃ evs oc, t.out = s.out ++ evs ++ [.outcome oc] ∧ (∀ oc', PortEvent.outcome oc' ∉ evs) ∧
      match oc with
      | .awaitingMore => t.stats.rxObjects = s.stats.rxObjects ∧ t.stats.rxErrors = s.stats.rxErrors
      | .discarded => t.stats.rxObjects = s.stats.rxObjects ∧
          t.stats.rxErrors = satInc s.params.statW s.stats.rxErrors 1
      | .framedOk _ _ _ _ true => t.stats.rxObjects = satInc s.params.statW s.stats.rxObjects 1 ∧
          t.stats.rxErrors = s.stats.rxErrors
      | .framedOk _ _ _ _ false => t.stats.rxObjects = s.stats.rxObjects ∧
          t.stats.rxErrors = satInc s.params.statW s.stats.rxErrors 1

/-- R111: the bytes of a frame the catalog expects, fed one by one to a machine that searches, give `AwaitingMore` for
every byte but the last and then `FramedOk` with exactly the frame's fields; the last step is that of the frame's
instruction at a state whose table, environment and parameters are those before the frame. The spec marks R111 as
derived; the premise that the buffer is canonical is about the model's form of it (log 12). -/
def Obligations.BuiltFrameIsReceived : Prop :=
  ∀ (t : FrameType) (o : ObjId) (i : InstId) (p : List Byte) (s : State),
    (s.rx.state = .sync ∨ s.rx.state = .complete ∨ s.rx.state = .error) → s.rx.buf.wf = true → p.length ≤ 255 →
    s.env.catalog.expects t o p.length →
    ∃ u v evs ok, feedAll (frameBytes t o i p) s = .next v ∧ exec (frameInstr t o i p) u = .next v ∧
      u.rx.state = .complete ∧ u.txn = s.txn ∧ u.env = s.env ∧ u.params = s.params ∧
      u.out = s.out ++ List.replicate (10 + p.length) (.outcome .awaitingMore) ∧
      v.out = u.out ++ evs ++ [.outcome (.framedOk t o i p ok)] ∧ ∀ oc, PortEvent.outcome oc ∉ evs

/-- The corruption property of S3 with R129 and R236: the same frame with any wrong checksum byte ends in `Error`; every byte
is counted and one error; table, environment, parameters, arrivals and the other counters stay, nothing is dispatched and
nothing sent. A machine in `Error` searches again (`FeedByteWhileSearching`). Decisions D7 to D9; canonical buffer:
log 12. -/
def Obligations.WrongChecksumIsDiscarded : Prop :=
  ∀ (t : FrameType) (o : ObjId) (i : InstId) (p : List Byte) (c : Byte) (s : State),
    (s.rx.state = .sync ∨ s.rx.state = .complete ∨ s.rx.state = .error) → s.rx.buf.wf = true → p.length ≤ 255 →
    s.env.catalog.expects t o p.length → (frameBytes t o i p).getLast? ≠ some c →
    ∃ v, feedAll ((frameBytes t o i p).dropLast ++ [c]) s = .next v ∧ v.rx.state = .error ∧ v.txn = s.txn ∧
      v.env = s.env ∧ v.params = s.params ∧ v.inbox = s.inbox ∧
      v.stats = { s.stats with
        rxBytes := (fun k => satInc s.params.statW k 1)^[11 + p.length] s.stats.rxBytes
        rxErrors := satInc s.params.statW s.stats.rxErrors 1 } ∧
      v.out = s.out ++ List.replicate (10 + p.length) (.outcome .awaitingMore) ++
        [.raised .badChecksum, .outcome .discarded]

/-! Unit U_TXN. -/

/-- R151: the exact key first, then the all-instances key of the same object, else none. The order is decision D14. -/
def Obligations.TxnFindExactFirst : Prop :=
  ∀ (t : TxnTable) (o : ObjId) (i : InstId),
    ((t.get o i).isSome = true → t.find o i = some (o, i)) ∧
    (t.get o i = none → (t.get o 0xFFFF).isSome = true → t.find o i = some (o, 0xFFFF)) ∧
    (t.get o i = none → t.get o 0xFFFF = none → t.find o i = none) ∧
    (∀ k, t.find o i = some k → k.1 = o ∧ (t.get k.1 k.2).isSome = true) ∧
    ∀ k, t.find o 0xFFFF = some k → k = (o, 0xFFFF)

/-- R152: opening sets that exact key, replacing its value if it was pending, and leaves every other key and every other part
of the state alone: no notification, no counter. That the table keeps its canonical form is the model's choice of how to hold
it (log 11), no rule; of that form, only that no key stands twice is R34. -/
def Obligations.TxnOpenOverwrites : Prop :=
  ∀ (o : ObjId) (i : InstId) (r : Resp) (s : State), s.txn.wf = true →
    (openTxn o i r s).txn.get o i = some r ∧
    (∀ o' i', (o', i') ≠ (o, i) → (openTxn o i r s).txn.get o' i' = s.txn.get o' i') ∧
    (openTxn o i r s).txn.wf = true ∧
    (openTxn o i r s).txn.length = (if (s.txn.get o i).isSome then s.txn.length else s.txn.length + 1) ∧
    openTxn o i r s = { s with txn := (openTxn o i r s).txn }

/-- R153: closing removes the entry and frees it, leaves every other key alone, and changes nothing when the key is not
present. That it keeps the canonical form is the model's choice of how to hold the table (log 11), no rule. -/
def Obligations.TxnCloseRemoves : Prop :=
  ∀ (k : TxnKey) (t : TxnTable), t.wf = true →
    (t.close k).get k.1 k.2 = none ∧
    (∀ o i, (o, i) ≠ k → (t.close k).get o i = t.get o i) ∧
    ((t.get k.1 k.2).isSome = true → (t.close k).length + 1 = t.length) ∧
    (t.get k.1 k.2 = none → t.close k = t) ∧ (t.close k).wf = true

/-- R156: the capacity test, and that a send for which it fails answers `TableFull` and changes nothing; an acknowledged
object and a request alike. Decision D13. -/
def Obligations.FullTableRefusesSends : Prop :=
  (∀ (depth : Config.Limit) (t : TxnTable) (o : ObjId) (i : InstId), t.canOpen depth o i = true ↔
    (t.get o i).isSome = true ∨ depth = .unbounded ∨ ∃ k, depth = .finite k ∧ t.length < k + 1) ∧
  ∀ (o : ObjId) (i i' : InstId) (all all' : Bool) (s : State),
    normalize s.env.catalog o i all = some (i', all') → s.txn.canOpen s.params.txnDepth o i' = false →
    exec (.sendObject o i true all) s = .next { s with out := s.out ++ [.result (.fail .tableFull)] } ∧
    exec (.sendRequest o i all) s = .next { s with out := s.out ++ [.result (.fail .tableFull)] }

/-- R157: a pending transaction is removed and one failure notification carries its stored key; with none, nothing
changes; the result says which. Decision D26. -/
def Obligations.CancelTransactionResult : Prop :=
  ∀ (o : ObjId) (i : InstId) (s : State),
    (∀ k, s.txn.find o i = some k → exec (.cancelTransaction o i) s =
      .next { s with txn := s.txn.close k, out := s.out ++ [.failure k.1 k.2, .result (.found true)] }) ∧
    (s.txn.find o i = none →
      exec (.cancelTransaction o i) s = .next { s with out := s.out ++ [.result (.found false)] })

/-- R60 (b), R157, R175: after a cancel that found the only transaction of the object that a reply could match, a second
cancel finds nothing and a late `ACK` is ignored: no table change, no notification, and it counts as a received object.
Decisions D3, D26, D27; canonical table: log 11. -/
def Obligations.LateReplyAfterCancelIgnored : Prop :=
  ∀ (o : ObjId) (i : InstId) (s t : State), s.txn.wf = true → i ≠ 0xFFFF →
    (s.txn.get o i = none ∨ s.txn.get o 0xFFFF = none) →
    exec (.cancelTransaction o i) s = .next t →
    t.txn.find o i = none ∧
    exec (.cancelTransaction o i) t = .next { t with out := t.out ++ [.result (.found false)] } ∧
    exec (.ack o i) t = .next { t with
      stats := t.stats.dispatched t.params.statW true
      out := t.out ++ [.outcome (.framedOk .ack o i [] true)] }

/-! Unit U_DSP. -/

/-- R171, R172, R158: an `OBJ` for an existing data instance stores the payload there and nowhere else, and counts as a
received object. The transaction it finds is closed, with one success notification, when that expects an object and is for
the exact instance, or for all instances and the `OBJ` is for instance 0; a transaction that expects an acknowledgement, and
an all-instances one for another instance, stays. Nothing else changes. Decisions D10, D16, D27. -/
def Obligations.ObjUpdatesInstance : Prop :=
  ∀ (o : ObjId) (i : InstId) (p : List Byte) (x : Stored) (e : Env) (s : State), i ≠ 0xFFFF →
    s.env.catalog.lookupInstance o i = some x → x.kind = .dataInstance → e = s.env.store (o, i) { x with bytes := p } →
    ((∀ k, s.txn.find o i = some k → s.txn.get k.1 k.2 = some .ack ∨ (k.2 = 0xFFFF ∧ i ≠ 0)) →
      exec (.obj o i p) s = .next { s with
        env := e, stats := s.stats.dispatched s.params.statW true,
        out := s.out ++ [.unpack o i p, .outcome (.framedOk .obj o i p true)] }) ∧
    (∀ k, s.txn.find o i = some k → s.txn.get k.1 k.2 = some .obj → (k.2 ≠ 0xFFFF ∨ i = 0) →
      exec (.obj o i p) s = .next { s with
        env := e, txn := s.txn.close k, stats := s.stats.dispatched s.params.statW true,
        out := s.out ++ [.unpack o i p, .success k.1 k.2, .outcome (.framedOk .obj o i p true)] }) ∧
    e.catalog.lookupInstance o i = some { x with bytes := p } ∧ e.sink = s.env.sink ∧
    ∀ o' i', (o', i') ≠ (o, i) → e.catalog.lookupInstance o' i' = s.env.catalog.lookupInstance o' i'

/-- R171, R172, R158: an `OBJ` for an instance that does not exist creates it, as the environment answers (any kind, any bytes,
any answer of `pack`: U5, log 23). A `DataInstance` then gets the payload, and a pending transaction is closed under the
condition of `ObjUpdatesInstance`; a metadata handle is a `CastError` after the creation: status 0, no unpack, no table
change. No other instance changes. Decisions D10, D16, D27. -/
def Obligations.ObjCreatesInstance : Prop :=
  ∀ (o : ObjId) (i : InstId) (p : List Byte) (x : Stored) (s : State), i ≠ 0xFFFF →
    s.env.catalog.lookupInstance o i = none → x = s.env.catalog.freshInstance (o, i) →
    ∃ e : Env, e.sink = s.env.sink ∧ e.catalog.objects = s.env.catalog.objects ∧
      e.catalog.fresh = s.env.catalog.fresh ∧
      (∀ o' i', (o', i') ≠ (o, i) → e.catalog.lookupInstance o' i' = s.env.catalog.lookupInstance o' i') ∧
      (x.kind = .dataInstance → e.catalog.lookupInstance o i = some { x with bytes := p } ∧
        ((∀ k, s.txn.find o i = some k → s.txn.get k.1 k.2 = some .ack ∨ (k.2 = 0xFFFF ∧ i ≠ 0)) →
          exec (.obj o i p) s = .next { s with
            env := e, stats := s.stats.dispatched s.params.statW true,
            out := s.out ++ [.create o i, .unpack o i p, .outcome (.framedOk .obj o i p true)] }) ∧
        (∀ k, s.txn.find o i = some k → s.txn.get k.1 k.2 = some .obj → (k.2 ≠ 0xFFFF ∨ i = 0) →
          exec (.obj o i p) s = .next { s with
            env := e, txn := s.txn.close k, stats := s.stats.dispatched s.params.statW true,
            out := s.out ++
              [.create o i, .unpack o i p, .success k.1 k.2, .outcome (.framedOk .obj o i p true)] })) ∧
      (x.kind = .metadata → e.catalog.lookupInstance o i = some x ∧
        exec (.obj o i p) s = .next { s with
          env := e, stats := s.stats.dispatched s.params.statW false,
          out := s.out ++ [.create o i, .raised .castError, .outcome (.framedOk .obj o i p false)] })

/-- R172, R173, R175, R225, R226: a frame of a type that may not carry the sentinel is only counted as an error and
reported with status 0, no update, no reply, no table change; an `OBJ` for a metadata handle likewise, without unpack.
Decisions D10, D27. -/
def Obligations.IllegalFramesOnlyCount : Prop :=
  ∀ (o : ObjId) (p : List Byte) (s : State),
    (exec (.obj o 0xFFFF p) s = .next { s with
      stats := s.stats.dispatched s.params.statW false
      out := s.out ++ [.raised .illegalAllInstances, .outcome (.framedOk .obj o 0xFFFF p false)] }) ∧
    (exec (.objAck o 0xFFFF p) s = .next { s with
      stats := s.stats.dispatched s.params.statW false
      out := s.out ++ [.raised .illegalAllInstances, .outcome (.framedOk .objAck o 0xFFFF p false)] }) ∧
    (exec (.ack o 0xFFFF) s = .next { s with
      stats := s.stats.dispatched s.params.statW false
      out := s.out ++ [.raised .illegalAllInstances, .outcome (.framedOk .ack o 0xFFFF [] false)] }) ∧
    ∀ i x, i ≠ 0xFFFF → s.env.catalog.lookupInstance o i = some x → x.kind = .metadata →
      exec (.obj o i p) s = .next { s with
        stats := s.stats.dispatched s.params.statW false
        out := s.out ++ [.raised .castError, .outcome (.framedOk .obj o i p false)] }

/-- R173: an `OBJ_ACK` for an existing data instance stores the payload and presents one `ACK` frame for the same object
and instance; the table is not touched. Decisions D10, D11, D27. -/
def Obligations.ObjAckUpdatesAndAcknowledges : Prop :=
  ∀ (o : ObjId) (i : InstId) (p : List Byte) (x : Stored) (e : Env) (s : State), i ≠ 0xFFFF →
    s.env.catalog.lookupInstance o i = some x → x.kind = .dataInstance →
    e = (s.env.store (o, i) { x with bytes := p }).wrote →
    (s.env.sink.answer = true → exec (.objAck o i p) s = .next { s with
      env := e, stats := (s.stats.sent s.params.statW 11).dispatched s.params.statW true,
      out := s.out ++ [.unpack o i p, .tx (frameBytes .ack o i []) true, .outcome (.framedOk .objAck o i p true)] }) ∧
    (s.env.sink.answer = false → exec (.objAck o i p) s = .next { s with
      env := e, stats := (s.stats.failedTx s.params.statW).dispatched s.params.statW true,
      out := s.out ++ [.unpack o i p, .tx (frameBytes .ack o i []) false, .raised .transmitFailure,
        .outcome (.framedOk .objAck o i p true)] })

/-- R173, R171, "unconditionally" (D18): for every instance but the sentinel, whatever the catalog answers, an `OBJ_ACK`
presents exactly one frame, the `ACK`, after its update, and is then reported. `u` is the state after the update, which has
moved nothing but the instance; it and the status `ok` are said for each of the four updates: found or created, as the
environment answers (log 23), and a `DataInstance` or not (`CastError`, status 0). Decisions D10, D11, D27. -/
def Obligations.ObjAckAlwaysAcknowledges : Prop :=
  ∀ (o : ObjId) (i : InstId) (p : List Byte) (s : State), i ≠ 0xFFFF →
    ∃ (u : State) (ok : Bool) (evs : List PortEvent), exec (.objAck o i p) s =
        .next ((u.afterControl .ack o i).reported .objAck o i p ok) ∧
      ((u.afterControl .ack o i).reported .objAck o i p ok).out = s.out ++ evs ∧
      evs.filter PortEvent.isTx = [.tx (frameBytes .ack o i []) s.env.sink.answer] ∧
      u.rx = s.rx ∧ u.txn = s.txn ∧ u.stats = s.stats ∧ u.params = s.params ∧ u.inbox = s.inbox ∧
      u.env.sink = s.env.sink ∧ u.env.catalog.objects = s.env.catalog.objects ∧
      u.env.catalog.fresh = s.env.catalog.fresh ∧
      (∀ o' i', (o', i') ≠ (o, i) →
        u.env.catalog.lookupInstance o' i' = s.env.catalog.lookupInstance o' i') ∧
      (∀ x, s.env.catalog.lookupInstance o i = some x → x.kind = .dataInstance → ok = true ∧
        u.out = s.out ++ [.unpack o i p] ∧ u.env.catalog.lookupInstance o i = some { x with bytes := p }) ∧
      (∀ x, s.env.catalog.lookupInstance o i = some x → x.kind = .metadata → ok = false ∧
        u.out = s.out ++ [.raised .castError] ∧ u.env = s.env) ∧
      ∀ x, s.env.catalog.lookupInstance o i = none → x = s.env.catalog.freshInstance (o, i) →
        (x.kind = .dataInstance → ok = true ∧ u.out = s.out ++ [.create o i, .unpack o i p] ∧
          u.env.catalog.lookupInstance o i = some { x with bytes := p }) ∧
        (x.kind = .metadata → ok = false ∧ u.out = s.out ++ [.create o i, .raised .castError] ∧
          u.env.catalog.lookupInstance o i = some x)

/-- R174, R191, R190 for a resolved target `j` sent alone: the exact instance, or instance 0 for the sentinel of a
single-instance object. It is presented as one `OBJ` frame. Where that cannot be, because the catalog does not know the
object, `pack` fails, it packs to 256 bytes or more, or the sink rejects the frame, a `NACK` with the request's instance id
follows, and the status is 1 all the same. Decisions D10, D11, D19, D27, D28. -/
def Obligations.ObjReqSendsInstance : Prop :=
  ∀ (o : ObjId) (i j : InstId) (x : Stored) (s : State), j = (if i = 0xFFFF then 0 else i) →
    s.env.catalog.lookupInstance o j = some x → x.kind = .dataInstance →
    (s.env.catalog.lookup o = none → exec (.objReq o i) s = .next ((State.afterControl .nack o i { s with
      stats := s.stats.failedTx s.params.statW
      out := s.out ++ [.raised .unknownObject] }).reported .objReq o i [] true)) ∧
    ∀ m, s.env.catalog.lookup o = some m → (i = 0xFFFF → m.singleInstance = true) →
      (x.packs = false → exec (.objReq o i) s = .next ((State.afterControl .nack o i { s with
        stats := s.stats.failedTx s.params.statW
        out := s.out ++ [.raised .transmitFailure] }).reported .objReq o i [] true)) ∧
      (x.packs = true → 256 ≤ x.bytes.length →
        exec (.objReq o i) s = .next ((State.afterControl .nack o i { s with
          stats := s.stats.failedTx s.params.statW
          out := s.out ++ [.raised .payloadTooLarge] }).reported .objReq o i [] true)) ∧
      (x.packs = true → x.bytes.length ≤ 255 → s.env.sink.answer = false →
        exec (.objReq o i) s = .next ((State.afterControl .nack o i { s with
          env := s.env.wrote
          stats := s.stats.failedTx s.params.statW
          out := s.out ++ [.tx (frameBytes .obj o j x.bytes) false, .raised .transmitFailure] }).reported
            .objReq o i [] true)) ∧
      (x.packs = true → x.bytes.length ≤ 255 → s.env.sink.answer = true → exec (.objReq o i) s = .next { s with
        env := s.env.wrote
        stats := (s.stats.sent s.params.statW (11 + x.bytes.length)).dispatched s.params.statW true
        out := s.out ++ [.tx (frameBytes .obj o j x.bytes) true, .outcome (.framedOk .objReq o i [] true)] })

/-- R174: an `OBJ_REQ` whose target (instance 0 for the sentinel) does not exist or is no data instance presents one
`NACK` that keeps the request's instance id, and has status 0. Decisions D10, D11, D19, D27; log 10, log 24. -/
def Obligations.ObjReqUnresolvedNacks : Prop :=
  ∀ (o : ObjId) (i j : InstId) (s : State), j = (if i = 0xFFFF then 0 else i) →
    (s.env.catalog.lookupInstance o j = none ∨
      ∃ x, s.env.catalog.lookupInstance o j = some x ∧ x.kind = .metadata) →
    (s.env.sink.answer = true → exec (.objReq o i) s = .next { s with
      env := s.env.wrote, stats := (s.stats.sent s.params.statW 11).dispatched s.params.statW false,
      out := s.out ++ [.tx (frameBytes .nack o i []) true, .outcome (.framedOk .objReq o i [] false)] }) ∧
    (s.env.sink.answer = false → exec (.objReq o i) s = .next { s with
      env := s.env.wrote, stats := (s.stats.failedTx s.params.statW).dispatched s.params.statW false,
      out := s.out ++ [.tx (frameBytes .nack o i []) false, .raised .transmitFailure,
        .outcome (.framedOk .objReq o i [] false)] })

/-- R174, R193, R65, R224: an all-instances `OBJ_REQ` for a multi-instance object whose instance 0 is resolved. With every
instance sendable and accepted it presents one `OBJ` frame per instance, in the descending order of the ids, and no `NACK`.
At the first instance that cannot be sent it stops: the frames before it stay sent, the `NACK` with the sentinel follows
them, and the status is 1. Decisions D10, D11, D19, D20, D27; log 10, log 16. -/
def Obligations.ObjReqAllInstances : Prop :=
  ∀ (o : ObjId) (m : ObjectMeta) (x : Stored) (payload : InstId → List Byte) (s : State),
    s.env.catalog.lookup o = some m → m.singleInstance = false →
    s.env.catalog.lookupInstance o 0 = some x → x.kind = .dataInstance →
    ((∀ j ∈ s.env.catalog.instanceIds o, s.env.catalog.sendable o j (payload j)) →
      s.env.sink.acceptsNext (s.env.catalog.instanceIds o).length = true →
      ∃ t, exec (.objReq o 0xFFFF) s = .next t ∧ t.rx = s.rx ∧ t.txn = s.txn ∧ t.params = s.params ∧ t.inbox = s.inbox ∧
        t.env.catalog = s.env.catalog ∧
        t.env.sink = s.env.sink.afterWrites (s.env.catalog.instanceIds o).length ∧
        t.stats = ((s.env.catalog.instanceIds o).foldl
          (fun st j => st.sent s.params.statW (11 + (payload j).length)) s.stats).dispatched s.params.statW true ∧
        t.out = s.out ++ (s.env.catalog.instanceIds o).map (fun j => .tx (frameBytes .obj o j (payload j)) true) ++
          [.outcome (.framedOk .objReq o 0xFFFF [] true)]) ∧
    ∀ (pre post : List InstId) (j : InstId) (e : ErrorName) (lost : List PortEvent),
      s.env.catalog.instanceIds o = pre ++ j :: post →
      (∀ j' ∈ pre, s.env.catalog.sendable o j' (payload j')) → s.env.sink.acceptsNext pre.length = true →
      s.env.failsAt .obj o pre.length j e lost →
      ∃ u : State, exec (.objReq o 0xFFFF) s =
          .next ((u.afterControl .nack o 0xFFFF).reported .objReq o 0xFFFF [] true) ∧
        u.rx = s.rx ∧ u.txn = s.txn ∧ u.params = s.params ∧ u.inbox = s.inbox ∧ u.env.catalog = s.env.catalog ∧
        u.env.sink = s.env.sink.afterWrites (pre.length + lost.length) ∧
        u.stats = (pre.foldl (fun st j' => st.sent s.params.statW (11 + (payload j').length)) s.stats).failedTx
          s.params.statW ∧
        u.out = s.out ++ pre.map (fun j' => .tx (frameBytes .obj o j' (payload j')) true) ++ lost ++ [.raised e]

/-- R175, R158: an `ACK` closes the transaction it finds when that expects an acknowledgement and is for the exact
instance, or for all instances and the `ACK` is for instance 0; otherwise it changes nothing; it always counts as a
received object. Decisions D10, D14, D16, D17, D27. -/
def Obligations.AckClosesTransaction : Prop :=
  ∀ (o : ObjId) (i : InstId) (s : State), i ≠ 0xFFFF →
    (∀ k, s.txn.find o i = some k → s.txn.get k.1 k.2 = some .ack → (k.2 ≠ 0xFFFF ∨ i = 0) →
      exec (.ack o i) s = .next { s with
        txn := s.txn.close k, stats := s.stats.dispatched s.params.statW true,
        out := s.out ++ [.success k.1 k.2, .outcome (.framedOk .ack o i [] true)] }) ∧
    ((∀ k, s.txn.find o i = some k → s.txn.get k.1 k.2 = some .obj ∨ (k.2 = 0xFFFF ∧ i ≠ 0)) →
      exec (.ack o i) s = .next { s with
        stats := s.stats.dispatched s.params.statW true,
        out := s.out ++ [.outcome (.framedOk .ack o i [] true)] })

/-- R176: a `NACK` closes whatever transaction it finds, of either kind and for any instance, the sentinel included,
through the success channel; with none it changes nothing. Decisions D10, D14, D17, D27. -/
def Obligations.NackClosesAnyTransaction : Prop :=
  ∀ (o : ObjId) (i : InstId) (s : State),
    (∀ k, s.txn.find o i = some k → exec (.nack o i) s = .next { s with
      txn := s.txn.close k, stats := s.stats.dispatched s.params.statW true,
      out := s.out ++ [.success k.1 k.2, .outcome (.framedOk .nack o i [] true)] }) ∧
    (s.txn.find o i = none → exec (.nack o i) s = .next { s with
      stats := s.stats.dispatched s.params.statW true,
      out := s.out ++ [.outcome (.framedOk .nack o i [] true)] })

/-! Unit U_TXP. -/

/-- R190, R192, R154, R155: a send of one instance that can be sent, with room for its transaction when acknowledged,
presents one frame, and opens `(obj, inst)` expecting an acknowledgement exactly when acknowledged. Decisions D11, D15. -/
def Obligations.SendObjectSingle : Prop :=
  ∀ (o : ObjId) (i : InstId) (acked : Bool) (p : List Byte) (m : ObjectMeta) (s : State),
    s.env.catalog.lookup o = some m → s.env.catalog.sendable o i p → s.env.sink.answer = true →
    (acked = true → s.txn.canOpen s.params.txnDepth o i = true) →
    exec (.sendObject o i acked false) s = .next { s with
      env := s.env.wrote, stats := s.stats.sent s.params.statW (11 + p.length),
      txn := if acked then s.txn.insert o i .ack else s.txn,
      out := s.out ++ [.tx (frameBytes (if acked then .objAck else .obj) o i p) true, .result .ok] }

/-- R190, R192, R235: the failures of a single send in the order of their checks. None opens a transaction, each adds
one to `tx_errors`, and only a rejected write presents a frame. An unknown object fails so with either value of `all`;
the other failures of an all-instances send are `SendAllStopsAtFirstFailure`'s. Decisions D11, D28; log 10. -/
def Obligations.SendObjectFailures : Prop :=
  ∀ (o : ObjId) (i : InstId) (acked : Bool) (s : State) (failed : ErrorName → State),
    (∀ e, failed e = { s with
      stats := s.stats.failedTx s.params.statW, out := s.out ++ [.raised e, .result (.fail e)] }) →
    (s.env.catalog.lookup o = none →
      ∀ all, exec (.sendObject o i acked all) s = .next (failed .unknownObject)) ∧
    ∀ m, s.env.catalog.lookup o = some m → (acked = true → s.txn.canOpen s.params.txnDepth o i = true) →
      (s.env.catalog.lookupInstance o i = none →
        exec (.sendObject o i acked false) s = .next (failed .unknownObject)) ∧
      (∀ x, s.env.catalog.lookupInstance o i = some x → x.kind = .metadata →
        exec (.sendObject o i acked false) s = .next (failed .castError)) ∧
      (∀ x, s.env.catalog.lookupInstance o i = some x → x.kind = .dataInstance → x.packs = false →
        exec (.sendObject o i acked false) s = .next (failed .transmitFailure)) ∧
      (∀ x, s.env.catalog.lookupInstance o i = some x → x.kind = .dataInstance → x.packs = true →
        256 ≤ x.bytes.length → exec (.sendObject o i acked false) s = .next (failed .payloadTooLarge)) ∧
      ∀ p, s.env.catalog.sendable o i p → s.env.sink.answer = false →
        exec (.sendObject o i acked false) s = .next { s with
          env := s.env.wrote, stats := s.stats.failedTx s.params.statW,
          out := s.out ++ [.tx (frameBytes (if acked then .objAck else .obj) o i p) false, .raised .transmitFailure,
            .result (.fail .transmitFailure)] }

/-- R193, R55: the ids an all-instances send goes through are strictly descending, are exactly the instances the catalog
finds, and never the sentinel. Which ids there are is decision D20 and log 10. -/
def Obligations.InstanceIdsDescend : Prop :=
  ∀ (c : Catalog) (o : ObjId), (c.instanceIds o).Pairwise (fun a b => b < a) ∧
    (∀ j, j ∈ c.instanceIds o ↔ (c.lookupInstance o j).isSome = true) ∧ 0xFFFF ∉ c.instanceIds o

/-- R192, R193, R65, R155: an all-instances send of a multi-instance object with every instance sendable presents
exactly one frame per instance in descending order of the ids, each with its own id, and when acknowledged opens the one
key `(obj, 0xFFFF)`. Decisions D15, D20; log 16. -/
def Obligations.SendAllInstances : Prop :=
  ∀ (o : ObjId) (i : InstId) (acked : Bool) (m : ObjectMeta) (payload : InstId → List Byte) (s : State),
    s.env.catalog.lookup o = some m → m.singleInstance = false →
    (∀ j ∈ s.env.catalog.instanceIds o, s.env.catalog.sendable o j (payload j)) →
    s.env.sink.acceptsNext (s.env.catalog.instanceIds o).length = true →
    (acked = true → s.txn.canOpen s.params.txnDepth o 0xFFFF = true) →
    ∃ t, exec (.sendObject o i acked true) s = .next t ∧ t.rx = s.rx ∧ t.params = s.params ∧ t.inbox = s.inbox ∧
      t.env.catalog = s.env.catalog ∧
      t.env.sink = s.env.sink.afterWrites (s.env.catalog.instanceIds o).length ∧
      t.txn = (if acked then s.txn.insert o 0xFFFF .ack else s.txn) ∧
      t.stats = (s.env.catalog.instanceIds o).foldl
        (fun st j => st.sent s.params.statW (11 + (payload j).length)) s.stats ∧
      t.out = s.out ++ (s.env.catalog.instanceIds o).map
        (fun j => .tx (frameBytes (if acked then .objAck else .obj) o j (payload j)) true) ++ [.result .ok]

/-- R193, R224, R277: an all-instances send stops at the first instance that cannot be sent, be it for the catalog, for the
framer, or for a sink that rejects in the middle (`failsAt`, vector T9): the frames before it stay sent, a rejected frame is
the last presented, the send fails with that error and opens nothing. Decisions D11, D15, D20; log 16. -/
def Obligations.SendAllStopsAtFirstFailure : Prop :=
  ∀ (o : ObjId) (i j : InstId) (acked : Bool) (m : ObjectMeta) (payload : InstId → List Byte) (pre post : List InstId)
    (e : ErrorName) (lost : List PortEvent) (s : State),
    s.env.catalog.lookup o = some m → m.singleInstance = false →
    s.env.catalog.instanceIds o = pre ++ j :: post →
    (∀ j' ∈ pre, s.env.catalog.sendable o j' (payload j')) → s.env.sink.acceptsNext pre.length = true →
    (acked = true → s.txn.canOpen s.params.txnDepth o 0xFFFF = true) →
    s.env.failsAt (if acked then .objAck else .obj) o pre.length j e lost →
    ∃ t, exec (.sendObject o i acked true) s = .next t ∧ t.rx = s.rx ∧ t.txn = s.txn ∧ t.params = s.params ∧
      t.inbox = s.inbox ∧ t.env.catalog = s.env.catalog ∧
      t.env.sink = s.env.sink.afterWrites (pre.length + lost.length) ∧
      t.stats = (pre.foldl (fun st j' => st.sent s.params.statW (11 + (payload j').length)) s.stats).failedTx
        s.params.statW ∧
      t.out = s.out ++ pre.map
        (fun j' => .tx (frameBytes (if acked then .objAck else .obj) o j' (payload j')) true) ++ lost ++
        [.raised e, .result (.fail e)]

/-- R194, R154, R155: a request for a known object with room for its transaction presents one `OBJ_REQ` frame, with the
sentinel for all instances of a multi-instance object, and opens the key of that frame expecting an object; a rejected
write opens nothing; an unknown object sends nothing. Decisions D11, D15, D28. -/
def Obligations.SendRequestResult : Prop :=
  ∀ (o : ObjId) (i j : InstId) (all : Bool) (s : State),
    (∀ m, s.env.catalog.lookup o = some m →
      j = (if all then (if m.singleInstance then 0 else 0xFFFF) else i) →
      s.txn.canOpen s.params.txnDepth o j = true →
      (s.env.sink.answer = true → exec (.sendRequest o i all) s = .next { s with
        env := s.env.wrote, stats := s.stats.sent s.params.statW 11, txn := s.txn.insert o j .obj,
        out := s.out ++ [.tx (frameBytes .objReq o j []) true, .result .ok] }) ∧
      (s.env.sink.answer = false → exec (.sendRequest o i all) s = .next { s with
        env := s.env.wrote, stats := s.stats.failedTx s.params.statW,
        out := s.out ++ [.tx (frameBytes .objReq o j []) false, .raised .transmitFailure,
          .result (.fail .transmitFailure)] })) ∧
    (s.env.catalog.lookup o = none → exec (.sendRequest o i all) s = .next { s with
      stats := s.stats.failedTx s.params.statW,
      out := s.out ++ [.raised .unknownObject, .result (.fail .unknownObject)] })

/-- R191, R86: the normalization both sends begin with; all instances of a single-instance object means its instance 0,
silently; and with `all` the `inst` operand is ignored. -/
def Obligations.SingleInstanceNormalized : Prop :=
  (∀ (c : Catalog) (o : ObjId) (i : InstId) (all : Bool),
    (c.lookup o = none → normalize c o i all = none) ∧
    ∀ m, c.lookup o = some m →
      (all = true → m.singleInstance = true → normalize c o i all = some (0, false)) ∧
      (all = true → m.singleInstance = false → normalize c o i all = some (0xFFFF, true)) ∧
      (all = false → normalize c o i all = some (i, false))) ∧
  (∀ (o : ObjId) (i : InstId) (acked : Bool) (m : ObjectMeta) (s : State),
    s.env.catalog.lookup o = some m → m.singleInstance = true →
    exec (.sendObject o i acked true) s = exec (.sendObject o 0 acked false) s ∧
    exec (.sendRequest o i true) s = exec (.sendRequest o 0 false) s) ∧
  ∀ (o : ObjId) (i i' : InstId) (acked : Bool) (s : State),
    exec (.sendObject o i acked true) s = exec (.sendObject o i' acked true) s ∧
    exec (.sendRequest o i true) s = exec (.sendRequest o i' true) s

/-! Unit U_STAT. -/

/-- R213: the six counters become zero and nothing else changes; and `n` increments by one from zero make `n`, as long
as that is within the width. That it puts nothing out is the model's choice (log 27), no rule. -/
def Obligations.StatsResetResult : Prop :=
  (∀ s : State, exec .statsReset s = .next { s with stats :=
    { txBytes := 0, txObjects := 0, txErrors := 0, rxBytes := 0, rxObjects := 0, rxErrors := 0 } }) ∧
  ∀ (w : Config.Limit) (n : Nat), withinWidth w n = true → (fun c => satInc w c 1)^[n] 0 = n

/-- R214: the six values as they are, on `P_STAT`; no state of the block changes. Decision D3. -/
def Obligations.StatsReadResult : Prop :=
  ∀ s : State, exec .statsRead s = .next { s with out := s.out ++ [.stats s.stats] }

/-- R212: saturating addition, and that no instruction but `STATS_RESET` decreases a counter or lets one leave its
width (of all events, the reset event of R260 zeroes them too: `StepOnOtherArrivals`). Saturation is decision D12. -/
def Obligations.CountersNeverDecrease : Prop :=
  (∀ c n : Nat, satInc .unbounded c n = c + n) ∧
  (∀ k c n : Nat, satInc (.finite k) c n = min (c + n) (2 ^ (k + 1) - 1)) ∧
  ∀ (i : Instr) (s t : State), s.stats.within s.params.statW = true → exec i s = .next t →
    t.stats.within s.params.statW = true ∧ (i ≠ .statsReset → s.stats.le t.stats)

/-- R35, R210: no instruction but `STATS_READ` reads a counter: from states that differ in the counters alone, results that
differ in the counters alone. -/
def Obligations.CountersAreNeverRead : Prop :=
  ∀ (i : Instr) (s t : State) (st : Stats), i ≠ .statsRead → exec i s = .next t →
    ∃ t', exec i { s with stats := st } = .next t' ∧ t = { t' with stats := t.stats }

/-! The machine. -/

/-- R8, R62, R120, R221, R249: in every state that satisfies the invariant every instruction completes in its step, and no
step stops with a fault ("nothing is fatal"). -/
def Obligations.EveryInstructionCompletes : Prop :=
  (∀ (i : Instr) (s : State), s.inv = true → ∃ t, exec i s = .next t) ∧
  ∀ (s : State) (f : Fault), s.inv = true → step s ≠ .fault f

/-- A step runs the decoded operation, at the state with the arrival taken off (R8, R85). The arrivals and their bytes:
log 2, log 4. -/
def Obligations.StepRunsDecodedOperation : Prop :=
  ∀ (bytes : List Byte) (rest : List Arrival) (i : Instr) (s : State),
    s.inbox = .op bytes :: rest → decode bytes = .ok i → isFrame i = false →
    step s = exec i { s with inbox := rest }

/-- Without an arrival the block is idle (R249); the reset event puts the block's state to the values of R38 and leaves the
environment, the parameters and what was put out (R260); a change of the environment changes nothing else; bytes that are no
operation, and a whole frame handed over as one, are refused (U9, log 17). -/
def Obligations.StepOnOtherArrivals : Prop :=
  ∀ (s : State) (rest : List Arrival),
    (s.inbox = [] → step s = .next s) ∧
    (s.inbox = .reset :: rest → step s = .next { s with
      rx := Rx.reset, txn := [], stats := Stats.zero, inbox := rest }) ∧
    (∀ e, s.inbox = .environment e :: rest → step s = .next { s with env := e, inbox := rest }) ∧
    (∀ bytes e, s.inbox = .op bytes :: rest → decode bytes = .error e → step s = .refused (.undecodable e)) ∧
    ∀ bytes i, s.inbox = .op bytes :: rest → decode bytes = .ok i → isFrame i = true →
      step s = .refused .frameAsOperation

/-- A table word placed next is run next: a host operation by itself; a frame by the `FEED_BYTE` of its checksum byte, which
is the frame's own instruction at a state with `rx_state = Complete` (log 6). -/
def Obligations.TableWordRunsNext : Prop :=
  ∀ (w : Nat) (i : Instr) (s : State), decodeTableWord 8 w = some i →
    (isFrame i = false → step (s.withFetchWord 8 w) = exec i s) ∧
    (isFrame i = true → ∃ u, step (s.withFetchWord 8 w) = exec i u ∧ u.rx.state = .complete ∧
      u.txn = s.txn ∧ u.env = s.env ∧ u.params = s.params ∧ u.inbox = s.inbox ∧ u.out = s.out)

/-- R38: the values after reset. Decision D23. -/
def Obligations.ResetValues : Prop :=
  State.reset.rx.state = .sync ∧ State.reset.rx.crc = 0 ∧ State.reset.rx.type = 0 ∧ State.reset.rx.size = 0 ∧
  State.reset.rx.objid = 0 ∧ State.reset.rx.instid = 0 ∧ State.reset.rx.count = 0 ∧ State.reset.rx.expected = 0 ∧
  State.reset.rx.pktlen = 0 ∧ State.reset.rx.objMeta = none ∧ (∀ a, State.reset.rx.buf.read a = 0) ∧
  (∀ o i, State.reset.txn.get o i = none) ∧ State.reset.stats = ⟨0, 0, 0, 0, 0, 0⟩

/-- The state after reset satisfies the invariant. -/
def Obligations.ResetSatisfiesInvariant : Prop := State.reset.inv = true

/-- R39, R34, R33, R35: every step, of an operation, of reset or of the environment, keeps the invariant: what R39 says
of the receive registers in each state, the accumulator the CRC of the bytes consumed, the buffer in canonical form, one
transaction per key and no more than the depth, counters of their width. The spec marks R39 as derived; the canonical
forms are log 11, log 12. -/
def Obligations.StepKeepsInvariant : Prop :=
  ∀ s t : State, s.inv = true → step s = .next t → t.inv = true

/-- R21, R133, R170, R261: no instruction but `FEED_BYTE` changes a receive register or a byte of the payload buffer; no
instruction changes the parameters or what is still to come; and what was put out stays, the new events after it. The
model's fields: log 2, log 3, log 7. -/
def Obligations.OnlyFeedByteMovesReceiver : Prop :=
  ∀ (i : Instr) (s t : State), exec i s = .next t →
    ((∀ b, i ≠ .feedByte b) → t.rx = s.rx ∧ ∀ a, t.rx.buf.read a = s.rx.buf.read a) ∧
    t.params = s.params ∧ t.inbox = s.inbox ∧ ∃ evs, t.out = s.out ++ evs

/-- R231, R177: a step either closes no transaction and notifies nothing, or closes exactly one and notifies once with its
stored key: failure for `CANCEL_TRANSACTION`, success for every other instruction. Canonical table:
log 11. -/
def Obligations.NotificationsMatchClosings : Prop :=
  ∀ (i : Instr) (s t : State), s.txn.wf = true → exec i s = .next t → ∃ evs, t.out = s.out ++ evs ∧
    ((evs.filter PortEvent.isNote = [] ∧ ∀ o n, (s.txn.get o n).isSome = true → (t.txn.get o n).isSome = true) ∨
     ∃ k : TxnKey, (s.txn.get k.1 k.2).isSome = true ∧ t.txn = s.txn.close k ∧ t.txn.get k.1 k.2 = none ∧
       evs.filter PortEvent.isNote =
         [if i.isCancel then .failure k.1 k.2 else .success k.1 k.2])

/-- R36: the catalog changes only in a step that puts out a creation or an unpack, and the block never changes what the
catalog knows of the objects. -/
def Obligations.CatalogChangesAreAnnounced : Prop :=
  ∀ (i : Instr) (s t : State), exec i s = .next t → t.env.catalog.objects = s.env.catalog.objects ∧
    ∃ evs, t.out = s.out ++ evs ∧ ((∀ e ∈ evs, e.isCatalogChange = false) → t.env.catalog = s.env.catalog)
end

