-- ==== Sys2Proof/Laws/State.lean ====
section
/-! SUPPORT. One lemma per field of the state per named operation, true by rfl: no proof needs to unfold a record update. -/

namespace Sys2Proof.Machine

/-! `emit`. -/

@[simp] theorem emit_rx (e : PortEvent) (s : State) : (emit e s).rx = s.rx := rfl
@[simp] theorem emit_txn (e : PortEvent) (s : State) : (emit e s).txn = s.txn := rfl
@[simp] theorem emit_stats (e : PortEvent) (s : State) : (emit e s).stats = s.stats := rfl
@[simp] theorem emit_params (e : PortEvent) (s : State) : (emit e s).params = s.params := rfl
@[simp] theorem emit_env (e : PortEvent) (s : State) : (emit e s).env = s.env := rfl
@[simp] theorem emit_inbox (e : PortEvent) (s : State) : (emit e s).inbox = s.inbox := rfl
@[simp] theorem emit_out (e : PortEvent) (s : State) : (emit e s).out = s.out ++ [e] := rfl

/-! `countRxByte`. -/

@[simp] theorem countRxByte_rx (s : State) : (countRxByte s).rx = s.rx := rfl
@[simp] theorem countRxByte_txn (s : State) : (countRxByte s).txn = s.txn := rfl
@[simp] theorem countRxByte_stats (s : State) :
    (countRxByte s).stats = { s.stats with rxBytes := satInc s.params.statW s.stats.rxBytes 1 } := rfl
@[simp] theorem countRxByte_params (s : State) : (countRxByte s).params = s.params := rfl
@[simp] theorem countRxByte_env (s : State) : (countRxByte s).env = s.env := rfl
@[simp] theorem countRxByte_inbox (s : State) : (countRxByte s).inbox = s.inbox := rfl
@[simp] theorem countRxByte_out (s : State) : (countRxByte s).out = s.out := rfl

/-! `countRxObject`. -/

@[simp] theorem countRxObject_rx (s : State) : (countRxObject s).rx = s.rx := rfl
@[simp] theorem countRxObject_txn (s : State) : (countRxObject s).txn = s.txn := rfl
@[simp] theorem countRxObject_stats (s : State) :
    (countRxObject s).stats = { s.stats with rxObjects := satInc s.params.statW s.stats.rxObjects 1 } := rfl
@[simp] theorem countRxObject_params (s : State) : (countRxObject s).params = s.params := rfl
@[simp] theorem countRxObject_env (s : State) : (countRxObject s).env = s.env := rfl
@[simp] theorem countRxObject_inbox (s : State) : (countRxObject s).inbox = s.inbox := rfl
@[simp] theorem countRxObject_out (s : State) : (countRxObject s).out = s.out := rfl

/-! `countRxError`. -/

@[simp] theorem countRxError_rx (s : State) : (countRxError s).rx = s.rx := rfl
@[simp] theorem countRxError_txn (s : State) : (countRxError s).txn = s.txn := rfl
@[simp] theorem countRxError_stats (s : State) :
    (countRxError s).stats = { s.stats with rxErrors := satInc s.params.statW s.stats.rxErrors 1 } := rfl
@[simp] theorem countRxError_params (s : State) : (countRxError s).params = s.params := rfl
@[simp] theorem countRxError_env (s : State) : (countRxError s).env = s.env := rfl
@[simp] theorem countRxError_inbox (s : State) : (countRxError s).inbox = s.inbox := rfl
@[simp] theorem countRxError_out (s : State) : (countRxError s).out = s.out := rfl

/-! `countTxFrame`. -/

@[simp] theorem countTxFrame_rx (n : Nat) (s : State) : (countTxFrame n s).rx = s.rx := rfl
@[simp] theorem countTxFrame_txn (n : Nat) (s : State) : (countTxFrame n s).txn = s.txn := rfl
@[simp] theorem countTxFrame_stats (n : Nat) (s : State) :
    (countTxFrame n s).stats = { s.stats with
      txBytes := satInc s.params.statW s.stats.txBytes n, txObjects := satInc s.params.statW s.stats.txObjects 1 } := rfl
@[simp] theorem countTxFrame_params (n : Nat) (s : State) : (countTxFrame n s).params = s.params := rfl
@[simp] theorem countTxFrame_env (n : Nat) (s : State) : (countTxFrame n s).env = s.env := rfl
@[simp] theorem countTxFrame_inbox (n : Nat) (s : State) : (countTxFrame n s).inbox = s.inbox := rfl
@[simp] theorem countTxFrame_out (n : Nat) (s : State) : (countTxFrame n s).out = s.out := rfl

/-! `countTxError`. -/

@[simp] theorem countTxError_rx (s : State) : (countTxError s).rx = s.rx := rfl
@[simp] theorem countTxError_txn (s : State) : (countTxError s).txn = s.txn := rfl
@[simp] theorem countTxError_stats (s : State) :
    (countTxError s).stats = { s.stats with txErrors := satInc s.params.statW s.stats.txErrors 1 } := rfl
@[simp] theorem countTxError_params (s : State) : (countTxError s).params = s.params := rfl
@[simp] theorem countTxError_env (s : State) : (countTxError s).env = s.env := rfl
@[simp] theorem countTxError_inbox (s : State) : (countTxError s).inbox = s.inbox := rfl
@[simp] theorem countTxError_out (s : State) : (countTxError s).out = s.out := rfl

/-! `openTxn`. -/

@[simp] theorem openTxn_rx (o : ObjId) (i : InstId) (r : Resp) (s : State) : (openTxn o i r s).rx = s.rx := rfl
@[simp] theorem openTxn_txn (o : ObjId) (i : InstId) (r : Resp) (s : State) :
    (openTxn o i r s).txn = s.txn.insert o i r := rfl
@[simp] theorem openTxn_stats (o : ObjId) (i : InstId) (r : Resp) (s : State) :
    (openTxn o i r s).stats = s.stats := rfl
@[simp] theorem openTxn_params (o : ObjId) (i : InstId) (r : Resp) (s : State) :
    (openTxn o i r s).params = s.params := rfl
@[simp] theorem openTxn_env (o : ObjId) (i : InstId) (r : Resp) (s : State) : (openTxn o i r s).env = s.env := rfl
@[simp] theorem openTxn_inbox (o : ObjId) (i : InstId) (r : Resp) (s : State) :
    (openTxn o i r s).inbox = s.inbox := rfl
@[simp] theorem openTxn_out (o : ObjId) (i : InstId) (r : Resp) (s : State) : (openTxn o i r s).out = s.out := rfl

/-! `closeSuccess`. -/

@[simp] theorem closeSuccess_rx (k : TxnKey) (s : State) : (closeSuccess k s).rx = s.rx := rfl
@[simp] theorem closeSuccess_txn (k : TxnKey) (s : State) : (closeSuccess k s).txn = s.txn.close k := rfl
@[simp] theorem closeSuccess_stats (k : TxnKey) (s : State) : (closeSuccess k s).stats = s.stats := rfl
@[simp] theorem closeSuccess_params (k : TxnKey) (s : State) : (closeSuccess k s).params = s.params := rfl
@[simp] theorem closeSuccess_env (k : TxnKey) (s : State) : (closeSuccess k s).env = s.env := rfl
@[simp] theorem closeSuccess_inbox (k : TxnKey) (s : State) : (closeSuccess k s).inbox = s.inbox := rfl
@[simp] theorem closeSuccess_out (k : TxnKey) (s : State) :
    (closeSuccess k s).out = s.out ++ [.success k.1 k.2] := rfl

/-! `closeFailure`. -/

@[simp] theorem closeFailure_rx (k : TxnKey) (s : State) : (closeFailure k s).rx = s.rx := rfl
@[simp] theorem closeFailure_txn (k : TxnKey) (s : State) : (closeFailure k s).txn = s.txn.close k := rfl
@[simp] theorem closeFailure_stats (k : TxnKey) (s : State) : (closeFailure k s).stats = s.stats := rfl
@[simp] theorem closeFailure_params (k : TxnKey) (s : State) : (closeFailure k s).params = s.params := rfl
@[simp] theorem closeFailure_env (k : TxnKey) (s : State) : (closeFailure k s).env = s.env := rfl
@[simp] theorem closeFailure_inbox (k : TxnKey) (s : State) : (closeFailure k s).inbox = s.inbox := rfl
@[simp] theorem closeFailure_out (k : TxnKey) (s : State) :
    (closeFailure k s).out = s.out ++ [.failure k.1 k.2] := rfl

/-! `createInstance`. -/

@[simp] theorem createInstance_rx (o : ObjId) (i : InstId) (s : State) : (createInstance o i s).1.rx = s.rx := rfl
@[simp] theorem createInstance_txn (o : ObjId) (i : InstId) (s : State) : (createInstance o i s).1.txn = s.txn := rfl
@[simp] theorem createInstance_stats (o : ObjId) (i : InstId) (s : State) :
    (createInstance o i s).1.stats = s.stats := rfl
@[simp] theorem createInstance_params (o : ObjId) (i : InstId) (s : State) :
    (createInstance o i s).1.params = s.params := rfl
@[simp] theorem createInstance_env (o : ObjId) (i : InstId) (s : State) :
    (createInstance o i s).1.env = s.env.store (o, i) (s.env.catalog.freshInstance (o, i)) := rfl
@[simp] theorem createInstance_inbox (o : ObjId) (i : InstId) (s : State) :
    (createInstance o i s).1.inbox = s.inbox := rfl
@[simp] theorem createInstance_out (o : ObjId) (i : InstId) (s : State) :
    (createInstance o i s).1.out = s.out ++ [.create o i] := rfl

/-! `unpackInto`. -/

@[simp] theorem unpackInto_rx (o : ObjId) (i : InstId) (x : Stored) (p : List Byte) (s : State) :
    (unpackInto o i x p s).rx = s.rx := rfl
@[simp] theorem unpackInto_txn (o : ObjId) (i : InstId) (x : Stored) (p : List Byte) (s : State) :
    (unpackInto o i x p s).txn = s.txn := rfl
@[simp] theorem unpackInto_stats (o : ObjId) (i : InstId) (x : Stored) (p : List Byte) (s : State) :
    (unpackInto o i x p s).stats = s.stats := rfl
@[simp] theorem unpackInto_params (o : ObjId) (i : InstId) (x : Stored) (p : List Byte) (s : State) :
    (unpackInto o i x p s).params = s.params := rfl
@[simp] theorem unpackInto_env (o : ObjId) (i : InstId) (x : Stored) (p : List Byte) (s : State) :
    (unpackInto o i x p s).env = s.env.store (o, i) { x with bytes := p } := rfl
@[simp] theorem unpackInto_inbox (o : ObjId) (i : InstId) (x : Stored) (p : List Byte) (s : State) :
    (unpackInto o i x p s).inbox = s.inbox := rfl
@[simp] theorem unpackInto_out (o : ObjId) (i : InstId) (x : Stored) (p : List Byte) (s : State) :
    (unpackInto o i x p s).out = s.out ++ [.unpack o i p] := rfl

/-! `sinkWrite`. -/

@[simp] theorem sinkWrite_rx (f : List Byte) (s : State) : (sinkWrite f s).rx = s.rx := rfl
@[simp] theorem sinkWrite_txn (f : List Byte) (s : State) : (sinkWrite f s).txn = s.txn := rfl
@[simp] theorem sinkWrite_stats (f : List Byte) (s : State) : (sinkWrite f s).stats = s.stats := rfl
@[simp] theorem sinkWrite_params (f : List Byte) (s : State) : (sinkWrite f s).params = s.params := rfl
@[simp] theorem sinkWrite_env (f : List Byte) (s : State) :
    (sinkWrite f s).env = { s.env with sink := s.env.sink.advance } := rfl
@[simp] theorem sinkWrite_inbox (f : List Byte) (s : State) : (sinkWrite f s).inbox = s.inbox := rfl
@[simp] theorem sinkWrite_out (f : List Byte) (s : State) :
    (sinkWrite f s).out = s.out ++ [.tx f s.env.sink.answer] := rfl

/-! `raiseRx`. -/

@[simp] theorem raiseRx_rx (e : ErrorName) (s : State) : (raiseRx e s).rx = s.rx := rfl
@[simp] theorem raiseRx_txn (e : ErrorName) (s : State) : (raiseRx e s).txn = s.txn := rfl
@[simp] theorem raiseRx_stats (e : ErrorName) (s : State) :
    (raiseRx e s).stats = { s.stats with rxErrors := satInc s.params.statW s.stats.rxErrors 1 } := rfl
@[simp] theorem raiseRx_params (e : ErrorName) (s : State) : (raiseRx e s).params = s.params := rfl
@[simp] theorem raiseRx_env (e : ErrorName) (s : State) : (raiseRx e s).env = s.env := rfl
@[simp] theorem raiseRx_inbox (e : ErrorName) (s : State) : (raiseRx e s).inbox = s.inbox := rfl
@[simp] theorem raiseRx_out (e : ErrorName) (s : State) : (raiseRx e s).out = s.out ++ [.raised e] := rfl

/-! `raiseTx`. -/

@[simp] theorem raiseTx_rx (e : ErrorName) (s : State) : (raiseTx e s).rx = s.rx := rfl
@[simp] theorem raiseTx_txn (e : ErrorName) (s : State) : (raiseTx e s).txn = s.txn := rfl
@[simp] theorem raiseTx_stats (e : ErrorName) (s : State) :
    (raiseTx e s).stats = { s.stats with txErrors := satInc s.params.statW s.stats.txErrors 1 } := rfl
@[simp] theorem raiseTx_params (e : ErrorName) (s : State) : (raiseTx e s).params = s.params := rfl
@[simp] theorem raiseTx_env (e : ErrorName) (s : State) : (raiseTx e s).env = s.env := rfl
@[simp] theorem raiseTx_inbox (e : ErrorName) (s : State) : (raiseTx e s).inbox = s.inbox := rfl
@[simp] theorem raiseTx_out (e : ErrorName) (s : State) : (raiseTx e s).out = s.out ++ [.raised e] := rfl

/-! `setRxState`. -/

@[simp] theorem setRxState_rx (st : RxState) (s : State) : (setRxState st s).rx = { s.rx with state := st } := rfl
@[simp] theorem setRxState_txn (st : RxState) (s : State) : (setRxState st s).txn = s.txn := rfl
@[simp] theorem setRxState_stats (st : RxState) (s : State) : (setRxState st s).stats = s.stats := rfl
@[simp] theorem setRxState_params (st : RxState) (s : State) : (setRxState st s).params = s.params := rfl
@[simp] theorem setRxState_env (st : RxState) (s : State) : (setRxState st s).env = s.env := rfl
@[simp] theorem setRxState_inbox (st : RxState) (s : State) : (setRxState st s).inbox = s.inbox := rfl
@[simp] theorem setRxState_out (st : RxState) (s : State) : (setRxState st s).out = s.out := rfl

/-! `enterError`. -/

@[simp] theorem enterError_rx (e : ErrorName) (s : State) : (enterError e s).rx = { s.rx with state := .error } := rfl
@[simp] theorem enterError_txn (e : ErrorName) (s : State) : (enterError e s).txn = s.txn := rfl
@[simp] theorem enterError_stats (e : ErrorName) (s : State) :
    (enterError e s).stats = { s.stats with rxErrors := satInc s.params.statW s.stats.rxErrors 1 } := rfl
@[simp] theorem enterError_params (e : ErrorName) (s : State) : (enterError e s).params = s.params := rfl
@[simp] theorem enterError_env (e : ErrorName) (s : State) : (enterError e s).env = s.env := rfl
@[simp] theorem enterError_inbox (e : ErrorName) (s : State) : (enterError e s).inbox = s.inbox := rfl
@[simp] theorem enterError_out (e : ErrorName) (s : State) : (enterError e s).out = s.out ++ [.raised e] := rfl

/-! `rejectToSync`. -/

@[simp] theorem rejectToSync_rx (e : ErrorName) (s : State) :
    (rejectToSync e s).rx = { s.rx with state := .sync } := rfl
@[simp] theorem rejectToSync_txn (e : ErrorName) (s : State) : (rejectToSync e s).txn = s.txn := rfl
@[simp] theorem rejectToSync_stats (e : ErrorName) (s : State) :
    (rejectToSync e s).stats = { s.stats with rxErrors := satInc s.params.statW s.stats.rxErrors 1 } := rfl
@[simp] theorem rejectToSync_params (e : ErrorName) (s : State) : (rejectToSync e s).params = s.params := rfl
@[simp] theorem rejectToSync_env (e : ErrorName) (s : State) : (rejectToSync e s).env = s.env := rfl
@[simp] theorem rejectToSync_inbox (e : ErrorName) (s : State) : (rejectToSync e s).inbox = s.inbox := rfl
@[simp] theorem rejectToSync_out (e : ErrorName) (s : State) : (rejectToSync e s).out = s.out ++ [.raised e] := rfl

/-! `beginByte`. -/

@[simp] theorem beginByte_rx (s : State) : (beginByte s).rx = { s.rx with state := s.rx.state.recover } := rfl
@[simp] theorem beginByte_txn (s : State) : (beginByte s).txn = s.txn := rfl
@[simp] theorem beginByte_stats (s : State) :
    (beginByte s).stats = { s.stats with rxBytes := satInc s.params.statW s.stats.rxBytes 1 } := rfl
@[simp] theorem beginByte_params (s : State) : (beginByte s).params = s.params := rfl
@[simp] theorem beginByte_env (s : State) : (beginByte s).env = s.env := rfl
@[simp] theorem beginByte_inbox (s : State) : (beginByte s).inbox = s.inbox := rfl
@[simp] theorem beginByte_out (s : State) : (beginByte s).out = s.out := rfl

/-! `resetBlock`. -/

@[simp] theorem resetBlock_rx (s : State) : (resetBlock s).rx = Rx.reset := rfl
@[simp] theorem resetBlock_txn (s : State) : (resetBlock s).txn = [] := rfl
@[simp] theorem resetBlock_stats (s : State) : (resetBlock s).stats = Stats.zero := rfl
@[simp] theorem resetBlock_params (s : State) : (resetBlock s).params = s.params := rfl
@[simp] theorem resetBlock_env (s : State) : (resetBlock s).env = s.env := rfl
@[simp] theorem resetBlock_inbox (s : State) : (resetBlock s).inbox = s.inbox := rfl
@[simp] theorem resetBlock_out (s : State) : (resetBlock s).out = s.out := rfl

/-! `returnOutcome`. -/

@[simp] theorem returnOutcome_rx (s : State) : (returnOutcome s).rx = s.rx := rfl
@[simp] theorem returnOutcome_txn (s : State) : (returnOutcome s).txn = s.txn := rfl
@[simp] theorem returnOutcome_stats (s : State) : (returnOutcome s).stats = s.stats := rfl
@[simp] theorem returnOutcome_params (s : State) : (returnOutcome s).params = s.params := rfl
@[simp] theorem returnOutcome_env (s : State) : (returnOutcome s).env = s.env := rfl
@[simp] theorem returnOutcome_inbox (s : State) : (returnOutcome s).inbox = s.inbox := rfl
@[simp] theorem returnOutcome_out (s : State) :
    (returnOutcome s).out = s.out ++ [.outcome (if s.rx.state.inProgress then .awaitingMore else .discarded)] := rfl

/-! `returnSend`. -/

@[simp] theorem returnSend_rx (r : State × SendResult) : (returnSend r).rx = r.1.rx := rfl
@[simp] theorem returnSend_txn (r : State × SendResult) : (returnSend r).txn = r.1.txn := rfl
@[simp] theorem returnSend_stats (r : State × SendResult) : (returnSend r).stats = r.1.stats := rfl
@[simp] theorem returnSend_params (r : State × SendResult) : (returnSend r).params = r.1.params := rfl
@[simp] theorem returnSend_env (r : State × SendResult) : (returnSend r).env = r.1.env := rfl
@[simp] theorem returnSend_inbox (r : State × SendResult) : (returnSend r).inbox = r.1.inbox := rfl
@[simp] theorem returnSend_out (r : State × SendResult) : (returnSend r).out = r.1.out ++ [.result r.2.toHost] := rfl

/-! `finishFrame`: its fields by the dispatch status. -/

@[simp] theorem finishFrame_rx (t : FrameType) (o : ObjId) (i : InstId) (p : List Byte) (r : State × Bool) :
    (finishFrame t o i p r).rx = r.1.rx := by
  cases h : r.2 <;> simp [finishFrame, h]

@[simp] theorem finishFrame_txn (t : FrameType) (o : ObjId) (i : InstId) (p : List Byte) (r : State × Bool) :
    (finishFrame t o i p r).txn = r.1.txn := by
  cases h : r.2 <;> simp [finishFrame, h]

@[simp] theorem finishFrame_params (t : FrameType) (o : ObjId) (i : InstId) (p : List Byte) (r : State × Bool) :
    (finishFrame t o i p r).params = r.1.params := by
  cases h : r.2 <;> simp [finishFrame, h]

@[simp] theorem finishFrame_env (t : FrameType) (o : ObjId) (i : InstId) (p : List Byte) (r : State × Bool) :
    (finishFrame t o i p r).env = r.1.env := by
  cases h : r.2 <;> simp [finishFrame, h]

@[simp] theorem finishFrame_inbox (t : FrameType) (o : ObjId) (i : InstId) (p : List Byte) (r : State × Bool) :
    (finishFrame t o i p r).inbox = r.1.inbox := by
  cases h : r.2 <;> simp [finishFrame, h]

@[simp] theorem finishFrame_out (t : FrameType) (o : ObjId) (i : InstId) (p : List Byte) (r : State × Bool) :
    (finishFrame t o i p r).out = r.1.out ++ [.outcome (.framedOk t o i p r.2)] := by
  cases h : r.2 <;> simp [finishFrame, h]

theorem finishFrame_stats (t : FrameType) (o : ObjId) (i : InstId) (p : List Byte) (r : State × Bool) :
    (finishFrame t o i p r).stats =
      if r.2 then { r.1.stats with rxObjects := satInc r.1.params.statW r.1.stats.rxObjects 1 }
      else { r.1.stats with rxErrors := satInc r.1.params.statW r.1.stats.rxErrors 1 } := by
  cases h : r.2 <;> simp [finishFrame, h]

@[simp] theorem Env.store_sink (k : TxnKey) (x : Stored) (e : Env) : (e.store k x).sink = e.sink := rfl
@[simp] theorem Env.store_objects (k : TxnKey) (x : Stored) (e : Env) :
    (e.store k x).catalog.objects = e.catalog.objects := rfl
@[simp] theorem Env.store_stored (k : TxnKey) (x : Stored) (e : Env) :
    (e.store k x).catalog.stored = storeIn k x e.catalog.stored := rfl
@[simp] theorem createInstance_snd (o : ObjId) (i : InstId) (s : State) :
    (createInstance o i s).2 = s.env.catalog.freshInstance (o, i) := rfl

end Sys2Proof.Machine
end

