-- ==== Sys2Proof/Laws/Catalog.lean ====
section
/-! SUPPORT. The catalog and the sink: what is found after something was stored, and the listing of instances. -/

namespace Sys2Proof.Machine

theorem lookupIn_storeIn_same {α β : Type} [DecidableEq α] (k : α) (v : β) :
    ∀ l : List (α × β), lookupIn k (storeIn k v l) = some v
  | [] => by simp [storeIn, lookupIn]
  | e :: l => by
    unfold storeIn
    split
    · simp [lookupIn]
    · rename_i h
      rw [lookupIn, if_neg h, lookupIn_storeIn_same k v l]

theorem lookupIn_storeIn_other {α β : Type} [DecidableEq α] {k k' : α} (h : k' ≠ k) (v : β) :
    ∀ l : List (α × β), lookupIn k' (storeIn k v l) = lookupIn k' l
  | [] => by simp [storeIn, lookupIn, Ne.symm h]
  | e :: l => by
    unfold storeIn
    split
    · rename_i hk
      subst hk
      simp [lookupIn, Ne.symm h]
    · rw [lookupIn, lookupIn, lookupIn_storeIn_other h v l]

/-- An instance stored under a proper id is found. -/
theorem lookupInstance_store_same (e : Env) (o : ObjId) {i : InstId} (h : i ≠ Config.allInstances) (x : Stored) :
    (e.store (o, i) x).catalog.lookupInstance o i = some x := by
  rw [Catalog.lookupInstance, if_neg h, Env.store_stored, lookupIn_storeIn_same]

/-- Storing an instance leaves every other one alone. -/
theorem lookupInstance_store_other (e : Env) {o o' : ObjId} {i i' : InstId} (h : (o', i') ≠ (o, i)) (x : Stored) :
    (e.store (o, i) x).catalog.lookupInstance o' i' = e.catalog.lookupInstance o' i' := by
  unfold Catalog.lookupInstance
  rw [Env.store_stored, lookupIn_storeIn_other h]

theorem lookup_store (e : Env) (k : TxnKey) (x : Stored) (o : ObjId) :
    (e.store k x).catalog.lookup o = e.catalog.lookup o := rfl

@[simp] theorem lookupInstance_allInstances (c : Catalog) (o : ObjId) :
    c.lookupInstance o Config.allInstances = none := by
  simp [Catalog.lookupInstance]

theorem mem_insertDescending {i j : InstId} : ∀ {l : List InstId}, j ∈ insertDescending i l ↔ j = i ∨ j ∈ l
  | [] => by simp [insertDescending]
  | k :: l => by
    unfold insertDescending
    split
    · simp
    · split
      · rename_i h
        subst h
        simp
      · simp only [List.mem_cons, mem_insertDescending]
        tauto

end Sys2Proof.Machine
end

