-- ==== Sys2Proof/Laws/Counters.lean ====
section
/-! SUPPORT. Saturating counters (R212): an increment stays within the width, and does not decrease a counter within it. -/

namespace Sys2Proof.Machine

theorem satInc_within (w : Config.Limit) (c n : Nat) : withinWidth w (satInc w c n) = true := by
  cases w with
  | unbounded => rfl
  | finite k => simp [withinWidth, satInc]

theorem le_satInc {w : Config.Limit} {c : Nat} (h : withinWidth w c = true) (n : Nat) : c ≤ satInc w c n := by
  cases w with
  | unbounded => exact Nat.le_add_right c n
  | finite k =>
    simp only [withinWidth, decide_eq_true_eq] at h
    simp only [satInc]
    omega

theorem Stats.le_refl (a : Stats) : a.le a := by simp [Stats.le]

theorem Stats.le_trans {a b c : Stats} (h : a.le b) (h' : b.le c) : a.le c := by
  unfold Stats.le at *
  omega

theorem Stats.within_iff (w : Config.Limit) (st : Stats) : st.within w = true ↔
    withinWidth w st.txBytes = true ∧ withinWidth w st.txObjects = true ∧ withinWidth w st.txErrors = true ∧
      withinWidth w st.rxBytes = true ∧ withinWidth w st.rxObjects = true ∧ withinWidth w st.rxErrors = true := by
  simp [Stats.within, and_assoc]

theorem Stats.zero_within (w : Config.Limit) : Stats.zero.within w = true := by
  cases w <;> simp [Stats.within, withinWidth, Stats.zero]

/-- What the counters of a state may do in a piece of a step that is not `STATS_RESET`: stay in their width and not
decrease. -/
def Grows (s t : State) : Prop :=
  t.params = s.params ∧
    (s.stats.within s.params.statW = true → t.stats.within s.params.statW = true ∧ s.stats.le t.stats)

theorem Grows.refl (s : State) : Grows s s := ⟨rfl, fun h => ⟨h, Stats.le_refl _⟩⟩

theorem Grows.trans {s t u : State} (h : Grows s t) (h' : Grows t u) : Grows s u := by
  refine ⟨h'.1.trans h.1, fun hs => ?_⟩
  have h1 := h.2 hs
  have h2 := h'.2 (by rw [h.1]; exact h1.1)
  rw [h.1] at h2
  exact ⟨h2.1, Stats.le_trans h1.2 h2.2⟩

/-- A piece of a step that leaves counters and parameters alone. -/
theorem Grows.of_eq {s t : State} (hp : t.params = s.params) (hs : t.stats = s.stats) : Grows s t :=
  ⟨hp, fun h => by rw [hs]; exact ⟨h, Stats.le_refl _⟩⟩

theorem Grows.countRxByte (s : State) : Grows s (countRxByte s) := by
  refine ⟨rfl, fun h => ?_⟩
  rw [Stats.within_iff] at h
  simp only [countRxByte_stats, Stats.within_iff, Stats.le]
  exact ⟨⟨h.1, h.2.1, h.2.2.1, satInc_within _ _ _, h.2.2.2.2⟩, by
    have := le_satInc h.2.2.2.1 1
    omega⟩

theorem Grows.countRxObject (s : State) : Grows s (countRxObject s) := by
  refine ⟨rfl, fun h => ?_⟩
  rw [Stats.within_iff] at h
  simp only [countRxObject_stats, Stats.within_iff, Stats.le]
  exact ⟨⟨h.1, h.2.1, h.2.2.1, h.2.2.2.1, satInc_within _ _ _, h.2.2.2.2.2⟩, by
    have := le_satInc h.2.2.2.2.1 1
    omega⟩

theorem Grows.countRxError (s : State) : Grows s (countRxError s) := by
  refine ⟨rfl, fun h => ?_⟩
  rw [Stats.within_iff] at h
  simp only [countRxError_stats, Stats.within_iff, Stats.le]
  exact ⟨⟨h.1, h.2.1, h.2.2.1, h.2.2.2.1, h.2.2.2.2.1, satInc_within _ _ _⟩, by
    have := le_satInc h.2.2.2.2.2 1
    omega⟩

theorem Grows.countTxError (s : State) : Grows s (countTxError s) := by
  refine ⟨rfl, fun h => ?_⟩
  rw [Stats.within_iff] at h
  simp only [countTxError_stats, Stats.within_iff, Stats.le]
  exact ⟨⟨h.1, h.2.1, satInc_within _ _ _, h.2.2.2⟩, by
    have := le_satInc h.2.2.1 1
    omega⟩

theorem Grows.countTxFrame (n : Nat) (s : State) : Grows s (countTxFrame n s) := by
  refine ⟨rfl, fun h => ?_⟩
  rw [Stats.within_iff] at h
  simp only [countTxFrame_stats, Stats.within_iff, Stats.le]
  exact ⟨⟨satInc_within _ _ _, satInc_within _ _ _, h.2.2⟩, by
    have := le_satInc h.1 n
    have := le_satInc h.2.1 1
    omega⟩

theorem Grows.raiseRx (e : ErrorName) (s : State) : Grows s (raiseRx e s) :=
  (Grows.of_eq rfl rfl : Grows s (emit (.raised e) s)).trans (Grows.countRxError _)

theorem Grows.raiseTx (e : ErrorName) (s : State) : Grows s (raiseTx e s) :=
  (Grows.of_eq rfl rfl : Grows s (emit (.raised e) s)).trans (Grows.countTxError _)

end Sys2Proof.Machine
end

