-- ==== Sys2Proof/Laws/Crc.lean ====
section
/-! SUPPORT. The CRC fold over sequences, and the shape of a frame. -/

namespace Sys2Proof.Machine

@[simp] theorem crc8UpdateMany_nil (c : Byte) : crc8UpdateMany c [] = c := rfl

theorem crc8UpdateMany_cons (c b : Byte) (data : List Byte) :
    crc8UpdateMany c (b :: data) = crc8UpdateMany (crc8Update c b) data := rfl

/-- The generator is incremental (R101). -/
theorem crc8UpdateMany_append (c : Byte) : ∀ s t : List Byte,
    crc8UpdateMany c (s ++ t) = crc8UpdateMany (crc8UpdateMany c s) t
  | [], _ => rfl
  | b :: s, t => by
    rw [List.cons_append, crc8UpdateMany_cons, crc8UpdateMany_cons, crc8UpdateMany_append]

/-- One more byte of a message folds one more byte into its checksum. -/
theorem crc8_snoc (s : List Byte) (b : Byte) : crc8 (s ++ [b]) = crc8Update (crc8 s) b := by
  rw [crc8, crc8UpdateMany_append]
  rfl

@[simp] theorem le16_length (v : Half) : (le16 v).length = 2 := rfl
@[simp] theorem le32_length (v : ObjId) : (le32 v).length = 4 := rfl

@[simp] theorem frameHeader_length (ty : Byte) (len : Half) (o : ObjId) (i : InstId) :
    (frameHeader ty len o i).length = 10 := rfl

/-- A frame with `n` payload bytes occupies `11 + n` bytes (R54). -/
@[simp] theorem frameBytes_length (t : FrameType) (o : ObjId) (i : InstId) (p : List Byte) :
    (frameBytes t o i p).length = 11 + p.length := by
  simp [frameBytes]
  omega

/-- What the framer answers (R110). -/
theorem buildFrame_cases (t : FrameType) (o : ObjId) (i : InstId) (p : List Byte) :
    (256 ≤ p.length ∧ buildFrame t o i p = .error .payloadTooLarge) ∨
      (p.length ≤ 255 ∧ buildFrame t o i p = .ok (frameBytes t o i p)) := by
  unfold buildFrame Config.maxPayload
  split
  · exact .inl ⟨by omega, rfl⟩
  · exact .inr ⟨by omega, rfl⟩

/-- The accumulator after the sync byte (R122). -/
theorem crc8_syncVal : crc8Update Config.crcInit Config.syncVal = 0xB4 := by decide

end Sys2Proof.Machine
end

