-- ==== Sys2Proof/Laws/Table.lean ====
section
/-! SUPPORT. The transaction table as a map: what open, close and find do, and that the canonical form is kept. -/

namespace Sys2Proof.Machine

theorem keyNat_inj {o o' : ObjId} {i i' : InstId} (h : keyNat o i = keyNat o' i') : o = o' ∧ i = i' := by
  have hi := i.isLt
  have hi' := i'.isLt
  unfold keyNat at h
  exact ⟨BitVec.eq_of_toNat_eq (by omega), BitVec.eq_of_toNat_eq (by omega)⟩

@[simp] theorem TxnTable.get_nil (o : ObjId) (i : InstId) : TxnTable.get [] o i = none := rfl

theorem TxnTable.get_cons (e : TxnEntry) (t : TxnTable) (o : ObjId) (i : InstId) :
    TxnTable.get (e :: t) o i = if e.objid = o ∧ e.instid = i then some e.resp else TxnTable.get t o i := rfl

theorem TxnTable.wfFrom_cons (lo : Nat) (e : TxnEntry) (t : TxnTable) :
    TxnTable.wfFrom lo (e :: t) = true ↔
      lo ≤ keyNat e.objid e.instid ∧ TxnTable.wfFrom (keyNat e.objid e.instid + 1) t = true := by
  simp [TxnTable.wfFrom]

theorem TxnTable.wfFrom_mono {lo lo' : Nat} (h : lo' ≤ lo) :
    ∀ {t : TxnTable}, TxnTable.wfFrom lo t = true → TxnTable.wfFrom lo' t = true
  | [], _ => rfl
  | e :: t, ht => by
    rw [TxnTable.wfFrom_cons] at ht ⊢
    exact ⟨by omega, ht.2⟩

theorem TxnTable.get_below {lo : Nat} {o : ObjId} {i : InstId} (h : keyNat o i < lo) :
    ∀ {t : TxnTable}, TxnTable.wfFrom lo t = true → t.get o i = none
  | [], _ => rfl
  | e :: t, ht => by
    rw [TxnTable.wfFrom_cons] at ht
    rw [TxnTable.get_cons, if_neg]
    · exact TxnTable.get_below (lo := keyNat e.objid e.instid + 1) (by omega) ht.2
    · rintro ⟨rfl, rfl⟩
      omega

/-- The key just opened is in the table with the value given. -/
theorem TxnTable.get_insert_same (o : ObjId) (i : InstId) (r : Resp) :
    ∀ t : TxnTable, (t.insert o i r).get o i = some r
  | [] => by simp [TxnTable.insert, TxnTable.get_cons]
  | e :: t => by
    unfold TxnTable.insert
    split
    · simp [TxnTable.get_cons]
    · split
      · simp [TxnTable.get_cons]
      · rename_i hne
        rw [TxnTable.get_cons, if_neg, TxnTable.get_insert_same o i r t]
        rintro ⟨rfl, rfl⟩
        exact hne rfl

/-- Opening a key leaves every other key alone. -/
theorem TxnTable.get_insert_other {o o' : ObjId} {i i' : InstId} (h : (o', i') ≠ (o, i)) (r : Resp) :
    ∀ t : TxnTable, (t.insert o i r).get o' i' = t.get o' i'
  | [] => by
    rw [TxnTable.insert, TxnTable.get_cons, if_neg]
    rintro ⟨rfl, rfl⟩
    exact h rfl
  | e :: t => by
    have hne : ¬(o = o' ∧ i = i') := by
      rintro ⟨rfl, rfl⟩
      exact h rfl
    unfold TxnTable.insert
    split
    · rw [TxnTable.get_cons, if_neg hne]
    · split
      · rename_i heq
        obtain ⟨rfl, rfl⟩ := keyNat_inj heq
        rw [TxnTable.get_cons, TxnTable.get_cons, if_neg hne, if_neg hne]
      · rw [TxnTable.get_cons, TxnTable.get_cons, TxnTable.get_insert_other h r t]

theorem TxnTable.insert_wfFrom {lo : Nat} {o : ObjId} {i : InstId} {r : Resp} (h : lo ≤ keyNat o i) :
    ∀ {t : TxnTable}, TxnTable.wfFrom lo t = true → TxnTable.wfFrom lo (t.insert o i r) = true
  | [], _ => by simp [TxnTable.insert, TxnTable.wfFrom, h]
  | e :: t, ht => by
    have he := (TxnTable.wfFrom_cons lo e t).1 ht
    unfold TxnTable.insert
    split
    · rename_i hlt
      rw [TxnTable.wfFrom_cons, TxnTable.wfFrom_cons]
      exact ⟨h, hlt, he.2⟩
    · split
      · rename_i heq
        rw [TxnTable.wfFrom_cons]
        exact ⟨h, by rw [heq]; exact he.2⟩
      · rw [TxnTable.wfFrom_cons]
        exact ⟨he.1, TxnTable.insert_wfFrom (by omega) he.2⟩

/-- Opening keeps the canonical form. -/
theorem TxnTable.insert_wf {o : ObjId} {i : InstId} {r : Resp} {t : TxnTable} (h : t.wf = true) :
    (t.insert o i r).wf = true :=
  TxnTable.insert_wfFrom (Nat.zero_le _) h

/-- Opening a pending key replaces its entry; opening another adds one. -/
theorem TxnTable.insert_length {o : ObjId} {i : InstId} {r : Resp} {lo : Nat} :
    ∀ {t : TxnTable}, TxnTable.wfFrom lo t = true →
      (t.insert o i r).length = if (t.get o i).isSome then t.length else t.length + 1
  | [], _ => by simp [TxnTable.insert]
  | e :: t, ht => by
    have he := (TxnTable.wfFrom_cons lo e t).1 ht
    unfold TxnTable.insert
    split
    · rename_i hlt
      have : TxnTable.get (e :: t) o i = none := TxnTable.get_below hlt ((TxnTable.wfFrom_cons _ e t).2 ⟨by omega, he.2⟩)
      simp [this]
    · split
      · rename_i heq
        obtain ⟨rfl, rfl⟩ := keyNat_inj heq
        simp [TxnTable.get_cons]
      · rename_i hne
        have hk : ¬(e.objid = o ∧ e.instid = i) := by
          rintro ⟨rfl, rfl⟩
          exact hne rfl
        rw [List.length_cons, TxnTable.insert_length he.2, TxnTable.get_cons, if_neg hk]
        split <;> simp

/-- The closed key is gone. -/
theorem TxnTable.get_close_same (k : TxnKey) {lo : Nat} :
    ∀ {t : TxnTable}, TxnTable.wfFrom lo t = true → (t.close k).get k.1 k.2 = none
  | [], _ => rfl
  | e :: t, ht => by
    have he := (TxnTable.wfFrom_cons lo e t).1 ht
    unfold TxnTable.close
    split
    · rename_i hk
      obtain ⟨h1, h2⟩ := hk
      exact TxnTable.get_below (lo := keyNat e.objid e.instid + 1) (by rw [h1, h2]; omega) he.2
    · rename_i hk
      rw [TxnTable.get_cons, if_neg hk, TxnTable.get_close_same k he.2]

/-- Closing a key leaves every other key alone. -/
theorem TxnTable.get_close_other {k : TxnKey} {o : ObjId} {i : InstId} (h : (o, i) ≠ k) :
    ∀ t : TxnTable, (t.close k).get o i = t.get o i
  | [] => rfl
  | e :: t => by
    unfold TxnTable.close
    split
    · rename_i hk
      rw [TxnTable.get_cons, if_neg]
      rintro ⟨rfl, rfl⟩
      exact h (Prod.ext hk.1 hk.2)
    · rw [TxnTable.get_cons, TxnTable.get_cons, TxnTable.get_close_other h t]

/-- Closing a key that is not pending changes nothing (R153). -/
theorem TxnTable.close_absent {k : TxnKey} : ∀ {t : TxnTable}, t.get k.1 k.2 = none → t.close k = t
  | [], _ => rfl
  | e :: t, h => by
    rw [TxnTable.get_cons] at h
    split at h
    · cases h
    · rename_i hk
      rw [TxnTable.close, if_neg hk, TxnTable.close_absent h]

theorem TxnTable.close_wfFrom {k : TxnKey} {lo : Nat} :
    ∀ {t : TxnTable}, TxnTable.wfFrom lo t = true → TxnTable.wfFrom lo (t.close k) = true
  | [], _ => rfl
  | e :: t, ht => by
    have he := (TxnTable.wfFrom_cons lo e t).1 ht
    unfold TxnTable.close
    split
    · exact TxnTable.wfFrom_mono (by omega) he.2
    · rw [TxnTable.wfFrom_cons]
      exact ⟨he.1, TxnTable.close_wfFrom he.2⟩

/-- Closing keeps the canonical form. -/
theorem TxnTable.close_wf {k : TxnKey} {t : TxnTable} (h : t.wf = true) : (t.close k).wf = true :=
  TxnTable.close_wfFrom h

/-- Closing a pending key frees its entry. -/
theorem TxnTable.close_length {k : TxnKey} : ∀ {t : TxnTable}, (t.get k.1 k.2).isSome → (t.close k).length + 1 = t.length
  | [], h => by simp at h
  | e :: t, h => by
    unfold TxnTable.close
    split
    · simp
    · rename_i hk
      rw [TxnTable.get_cons, if_neg hk] at h
      simp [TxnTable.close_length h]

theorem TxnTable.close_length_le (k : TxnKey) : ∀ t : TxnTable, (t.close k).length ≤ t.length
  | [] => Nat.le_refl _
  | e :: t => by
    unfold TxnTable.close
    split
    · simp
    · simpa using TxnTable.close_length_le k t

/-- What the lookup answers (R151): a pending key of the same object, exact or all-instances. -/
theorem TxnTable.find_some {t : TxnTable} {o : ObjId} {i : InstId} {k : TxnKey} (h : t.find o i = some k) :
    (t.get k.1 k.2).isSome = true ∧ k.1 = o ∧ (k.2 = i ∨ k.2 = Config.allInstances) := by
  unfold TxnTable.find at h
  split at h
  · rename_i h1
    cases h
    exact ⟨h1, rfl, .inl rfl⟩
  · split at h
    · rename_i h2
      cases h
      exact ⟨h2, rfl, .inr rfl⟩
    · cases h

theorem TxnTable.find_none {t : TxnTable} {o : ObjId} {i : InstId} (h : t.find o i = none) :
    t.get o i = none ∧ t.get o Config.allInstances = none := by
  unfold TxnTable.find at h
  split at h
  · cases h
  · rename_i h1
    split at h
    · cases h
    · rename_i h2
      exact ⟨by simpa using h1, by simpa using h2⟩

end Sys2Proof.Machine
end

