-- ==== Sys2Proof/Laws/Transmit.lean ====
section
/-! SUPPORT. The transmit path: everything `TRANSMIT_SINGLE` can do, said once, and what no transmission touches. -/

namespace Sys2Proof.Machine

/-- Everything `TRANSMIT_SINGLE` can do (R190): no frame to present, an accepted write, a rejected write. -/
theorem transmitSingle_cases (t : FrameType) (o : ObjId) (i : InstId) (s : State) :
    (∃ e, frameFor t o i s.env.catalog = .error e ∧ transmitSingle t o i s = (raiseTx e s, .fail e)) ∨
    (∃ f, frameFor t o i s.env.catalog = .ok f ∧ s.env.sink.answer = true ∧
      transmitSingle t o i s = (countTxFrame f.length (sinkWrite f s), .ok)) ∨
    (∃ f, frameFor t o i s.env.catalog = .ok f ∧ s.env.sink.answer = false ∧
      transmitSingle t o i s = (raiseTx .transmitFailure (sinkWrite f s), .fail .transmitFailure)) := by
  unfold transmitSingle
  cases hf : frameFor t o i s.env.catalog with
  | error e => exact .inl ⟨e, rfl, rfl⟩
  | ok f =>
    cases ha : s.env.sink.answer with
    | true => exact .inr (.inl ⟨f, rfl, rfl, by simp⟩)
    | false => exact .inr (.inr ⟨f, rfl, rfl, by simp [failTx]⟩)

/-- What a transmission leaves alone (R190: "nothing else" is written): receive registers, table, inbox, catalog, receive
counters; and what it puts out: frames and labels. -/
structure TxOnly (s t : State) : Prop where
  rx : t.rx = s.rx
  txn : t.txn = s.txn
  inbox : t.inbox = s.inbox
  catalog : t.env.catalog = s.env.catalog
  rxBytes : t.stats.rxBytes = s.stats.rxBytes
  rxObjects : t.stats.rxObjects = s.stats.rxObjects
  rxErrors : t.stats.rxErrors = s.stats.rxErrors
  grows : Grows s t
  out : ∃ evs, t.out = s.out ++ evs ∧ ∀ e ∈ evs, e.isTx = true ∨ ∃ n, e = .raised n

theorem TxOnly.refl (s : State) : TxOnly s s :=
  ⟨rfl, rfl, rfl, rfl, rfl, rfl, rfl, Grows.refl s, [], by simp, by simp⟩

theorem TxOnly.trans {s t u : State} (h : TxOnly s t) (h' : TxOnly t u) : TxOnly s u := by
  obtain ⟨a, ha, ha'⟩ := h.out
  obtain ⟨b, hb, hb'⟩ := h'.out
  refine ⟨h'.rx.trans h.rx, h'.txn.trans h.txn, h'.inbox.trans h.inbox, h'.catalog.trans h.catalog,
    h'.rxBytes.trans h.rxBytes, h'.rxObjects.trans h.rxObjects, h'.rxErrors.trans h.rxErrors, h.grows.trans h'.grows,
    a ++ b, by rw [hb, ha, List.append_assoc], fun e he => ?_⟩
  rcases List.mem_append.1 he with he | he
  · exact ha' e he
  · exact hb' e he

theorem TxOnly.raiseTx (e : ErrorName) (s : State) : TxOnly s (raiseTx e s) :=
  ⟨rfl, rfl, rfl, rfl, rfl, rfl, rfl, Grows.raiseTx e s, [.raised e], rfl, by simp⟩

theorem TxOnly.sinkWrite (f : List Byte) (s : State) : TxOnly s (sinkWrite f s) :=
  ⟨rfl, rfl, rfl, rfl, rfl, rfl, rfl, Grows.of_eq rfl rfl, [.tx f s.env.sink.answer], rfl, by simp [PortEvent.isTx]⟩

theorem TxOnly.countTxFrame (n : Nat) (s : State) : TxOnly s (countTxFrame n s) :=
  ⟨rfl, rfl, rfl, rfl, rfl, rfl, rfl, Grows.countTxFrame n s, [], by simp, by simp⟩

/-- A single transmission touches only what R190 names. -/
theorem transmitSingle_txOnly (t : FrameType) (o : ObjId) (i : InstId) (s : State) :
    TxOnly s (transmitSingle t o i s).1 := by
  obtain ⟨e, -, h⟩ | ⟨f, -, -, h⟩ | ⟨f, -, -, h⟩ := transmitSingle_cases t o i s
  · rw [h]
    exact TxOnly.raiseTx e s
  · rw [h]
    exact (TxOnly.sinkWrite f s).trans (TxOnly.countTxFrame _ _)
  · rw [h]
    exact (TxOnly.sinkWrite f s).trans (TxOnly.raiseTx _ _)

theorem sendEach_txOnly (t : FrameType) (o : ObjId) : ∀ (ids : List InstId) (s : State),
    TxOnly s (sendEach t o ids s).1
  | [], s => TxOnly.refl s
  | j :: ids, s => by
    have h := transmitSingle_txOnly t o j s
    unfold sendEach
    split
    · rename_i s' heq
      rw [heq] at h
      exact h.trans (sendEach_txOnly t o ids s')
    · rename_i s' e heq
      rw [heq] at h
      exact h

theorem sendAll_txOnly (t : FrameType) (o : ObjId) (s : State) : TxOnly s (sendAll t o s).1 :=
  sendEach_txOnly t o _ s

/-- Everything `SEND_OBJECT` can do (R192): an unknown object, a full table, a failed transmission, a sent object; only the
last, and only when acknowledged, opens a transaction. -/
theorem sendObject_cases (o : ObjId) (i : InstId) (acked all : Bool) (s : State) :
    (normalize s.env.catalog o i all = none ∧ sendObject o i acked all s = (raiseTx .unknownObject s, .fail .unknownObject)) ∨
    ∃ i' all', normalize s.env.catalog o i all = some (i', all') ∧
      ((acked = true ∧ s.txn.canOpen s.params.txnDepth o i' = false ∧
          sendObject o i acked all s = (s, .fail .tableFull)) ∨
       ((acked = true → s.txn.canOpen s.params.txnDepth o i' = true) ∧ ∃ s', TxOnly s s' ∧
          ((∃ e, sendObject o i acked all s = (s', .fail e)) ∨
           sendObject o i acked all s = (if acked then openTxn o i' .ack s' else s', .ok)))) := by
  unfold sendObject
  cases hn : normalize s.env.catalog o i all with
  | none => exact .inl ⟨rfl, rfl⟩
  | some k =>
    obtain ⟨i', all'⟩ := k
    refine .inr ⟨i', all', rfl, ?_⟩
    by_cases hc : (acked && !s.txn.canOpen s.params.txnDepth o i') = true
    · simp only [hc, if_true]
      simp only [Bool.and_eq_true, Bool.not_eq_true'] at hc
      exact .inl ⟨hc.1, hc.2, trivial⟩
    · simp only [hc]
      refine .inr ⟨fun ha => by simpa [ha] using hc, ?_⟩
      have htx : TxOnly s (if all' then sendAll (if acked then .objAck else .obj) o s
          else transmitSingle (if acked then .objAck else .obj) o i' s).1 := by
        cases all'
        · exact transmitSingle_txOnly _ _ _ _
        · exact sendAll_txOnly _ _ _
      generalize (if all' then sendAll (if acked then FrameType.objAck else .obj) o s
          else transmitSingle (if acked then .objAck else .obj) o i' s) = r at htx
      obtain ⟨s', res⟩ := r
      refine ⟨s', htx, ?_⟩
      cases res with
      | ok => exact .inr rfl
      | fail e => exact .inl ⟨e, rfl⟩

/-- An unacknowledged send only transmits: the form dispatch uses (R174). -/
theorem sendObject_unacked_txOnly (o : ObjId) (i : InstId) (all : Bool) (s : State) :
    TxOnly s (sendObject o i false all s).1 := by
  obtain ⟨-, h⟩ | ⟨i', all', -, ⟨h, -⟩ | ⟨-, s', htx, ⟨e, h⟩ | h⟩⟩ := sendObject_cases o i false all s
  · rw [h]
    exact TxOnly.raiseTx _ s
  · cases h
  · rw [h]
    exact htx
  · rw [h]
    exact htx

/-- Everything `SEND_REQUEST` can do (R194). -/
theorem sendRequest_cases (o : ObjId) (i : InstId) (all : Bool) (s : State) :
    (normalize s.env.catalog o i all = none ∧ sendRequest o i all s = (raiseTx .unknownObject s, .fail .unknownObject)) ∨
    ∃ i' all', normalize s.env.catalog o i all = some (i', all') ∧
      ((s.txn.canOpen s.params.txnDepth o i' = false ∧ sendRequest o i all s = (s, .fail .tableFull)) ∨
       (s.txn.canOpen s.params.txnDepth o i' = true ∧ ∃ s', TxOnly s s' ∧
          ((∃ e, sendRequest o i all s = (s', .fail e)) ∨ sendRequest o i all s = (openTxn o i' .obj s', .ok)))) := by
  unfold sendRequest
  cases hn : normalize s.env.catalog o i all with
  | none => exact .inl ⟨rfl, rfl⟩
  | some k =>
    obtain ⟨i', all'⟩ := k
    refine .inr ⟨i', all', rfl, ?_⟩
    cases hc : s.txn.canOpen s.params.txnDepth o i' with
    | false => exact .inl ⟨rfl, by simp [hc]⟩
    | true =>
      refine .inr ⟨rfl, ?_⟩
      have htx := transmitSingle_txOnly .objReq o i' s
      simp only [hc, Bool.not_true, Bool.false_eq_true, if_false]
      generalize transmitSingle .objReq o i' s = r at htx
      obtain ⟨s', res⟩ := r
      refine ⟨s', htx, ?_⟩
      cases res with
      | ok => exact .inr rfl
      | fail e => exact .inl ⟨e, rfl⟩

/-- A frame that can be sent and is accepted is presented, counted, and nothing else changes (R190). -/
theorem transmitSingle_sendable {t : FrameType} {o : ObjId} {j : InstId} {p : List Byte} {s : State}
    (ht : t.carriesPayload = true) (hs : s.env.catalog.sendable o j p) (ha : s.env.sink.answer = true) :
    transmitSingle t o j s = ({ s with
      env := s.env.wrote
      stats := s.stats.sent s.params.statW (11 + p.length)
      out := s.out ++ [.tx (frameBytes t o j p) true] }, .ok) := by
  obtain ⟨x, hx, hk, hp, rfl, hl⟩ := hs
  have hn : ¬255 < x.bytes.length := by omega
  simp [transmitSingle, frameFor, payloadFor, ht, hx, hk, Stored.pack, hp, buildFrame, Config.maxPayload, hn, ha,
    countTxFrame, sinkWrite, emit, Stats.sent, Env.wrote]

/-- An all-instances iteration whose first ids `ids` can all be sent and are accepted has presented their frames in order
when it comes to the rest (R193). -/
theorem sendEach_prefix {t : FrameType} (ht : t.carriesPayload = true) (o : ObjId) (payload : InstId → List Byte) :
    ∀ (ids post : List InstId) (s : State), (∀ j ∈ ids, s.env.catalog.sendable o j (payload j)) →
      s.env.sink.acceptsNext ids.length = true →
      ∃ u, sendEach t o (ids ++ post) s = sendEach t o post u ∧ u.rx = s.rx ∧ u.params = s.params ∧ u.inbox = s.inbox ∧
        u.txn = s.txn ∧ u.env.catalog = s.env.catalog ∧
        u.env.sink = s.env.sink.afterWrites ids.length ∧
        u.stats = ids.foldl (fun st j => st.sent s.params.statW (11 + (payload j).length)) s.stats ∧
        u.out = s.out ++ ids.map (fun j => .tx (frameBytes t o j (payload j)) true)
  | [], _, s, _, _ => ⟨s, by simp [Sink.afterWrites]⟩
  | j :: ids, post, s, h, hk => by
    simp only [List.length_cons, Sink.acceptsNext, Bool.and_eq_true] at hk
    have hj := transmitSingle_sendable ht (h j (by simp)) hk.1
    obtain ⟨u, h1, h2, h3, h4, h5, h6, h7, h8, h9⟩ := sendEach_prefix ht o payload ids post
      { s with
        env := s.env.wrote
        stats := s.stats.sent s.params.statW (11 + (payload j).length)
        out := s.out ++ [.tx (frameBytes t o j (payload j)) true] } (fun j' hj' => h j' (by simp [hj'])) hk.2
    refine ⟨u, ?_, h2, h3, h4, h5, h6, h7, h8, by simp [h9]⟩
    rw [← h1, List.cons_append]
    conv_lhs => unfold sendEach
    rw [hj]

theorem Sink.afterWrites_add (m : Nat) : ∀ (n : Nat) (k : Sink), k.afterWrites (n + m) = (k.afterWrites n).afterWrites m
  | 0, k => by simp [Sink.afterWrites]
  | n + 1, k => by
    rw [Nat.succ_add]
    exact Sink.afterWrites_add m n k.advance

/-- What fails after `n` writes fails at once when they are made. -/
theorem Env.failsAt_after {env env' : Env} {t : FrameType} {o : ObjId} {n : Nat} {j : InstId} {e : ErrorName}
    {lost : List PortEvent} (hc : env'.catalog = env.catalog) (hs : env'.sink = env.sink.afterWrites n)
    (h : env.failsAt t o n j e lost) : env'.failsAt t o 0 j e lost := by
  simpa only [Env.failsAt, hc, hs, Sink.afterWrites] using h

/-- A frame without payload is always presented, and its transmission does what the sink's answer says (R190). -/
theorem transmitSingle_control {t : FrameType} (ht : t.carriesPayload = false) (o : ObjId) (i : InstId) (s : State) :
    (transmitSingle t o i s).1 = s.afterControl t o i := by
  have hf : frameFor t o i s.env.catalog = .ok (frameBytes t o i []) := by
    simp [frameFor, payloadFor, ht, buildFrame]
  cases ha : s.env.sink.answer <;>
    simp [transmitSingle, hf, ha, State.afterControl, failTx, raiseTx, countTxError, countTxFrame, sinkWrite, emit,
      Stats.sent, Stats.failedTx, Env.wrote]

/-- The failures of one transmission inside an all-instances send (R190, R193): the error is counted and returned, after the
frame was presented only where the sink rejects it. -/
theorem transmitSingle_failsAt {t : FrameType} {o : ObjId} {j : InstId} {e : ErrorName} {lost : List PortEvent} {s : State}
    (ht : t.carriesPayload = true) (h : s.env.failsAt t o 0 j e lost) :
    transmitSingle t o j s = ({ s with
      env := { s.env with sink := s.env.sink.afterWrites lost.length }
      stats := s.stats.failedTx s.params.statW
      out := s.out ++ lost ++ [.raised e] }, .fail e) := by
  obtain ⟨x, hx, rfl, ⟨hk, rfl⟩ | ⟨hk, hp, rfl⟩ | ⟨hk, hp, hl, rfl⟩⟩ | ⟨p, ⟨x, hx, hk, hp, rfl, hl⟩, ha, rfl, rfl⟩ := h
  · simp [transmitSingle, frameFor, payloadFor, ht, hx, hk, failTx, raiseTx, countTxError, emit, Stats.failedTx,
      Sink.afterWrites]
  · simp [transmitSingle, frameFor, payloadFor, ht, hx, hk, Stored.pack, hp, failTx, raiseTx, countTxError, emit,
      Stats.failedTx, Sink.afterWrites]
  · have hn : 255 < x.bytes.length := hl
    simp [transmitSingle, frameFor, payloadFor, ht, hx, hk, Stored.pack, hp, buildFrame, Config.maxPayload, hn, failTx,
      raiseTx, countTxError, emit, Stats.failedTx, Sink.afterWrites]
  · have hn : ¬255 < x.bytes.length := by omega
    simp only [Sink.afterWrites] at ha
    simp [transmitSingle, frameFor, payloadFor, ht, hx, hk, Stored.pack, hp, buildFrame, Config.maxPayload, hn, ha, failTx,
      raiseTx, countTxError, sinkWrite, emit, Stats.failedTx, Sink.afterWrites]

end Sys2Proof.Machine
end

