-- ==== Sys2Proof/Laws/Frames.lean ====
section
/-! SUPPORT. Dispatch: what each branch can do, said once, and what no branch touches (R170: no receive register). -/

namespace Sys2Proof.Machine

/-- Everything `UPDATE_OBJECT` can do (R171): the instance `x` found or created, then either unpacked or a `CastError`. -/
theorem updateObject_cases (o : ObjId) (i : InstId) (p : List Byte) (s : State) :
    (∃ x, s.env.catalog.lookupInstance o i = some x ∧ x.kind = .dataInstance ∧
      updateObject o i p s = (unpackInto o i x p s, true)) ∨
    (∃ x, s.env.catalog.lookupInstance o i = some x ∧ x.kind = .metadata ∧
      updateObject o i p s = (emit (.raised .castError) s, false)) ∨
    (s.env.catalog.lookupInstance o i = none ∧ (s.env.catalog.freshInstance (o, i)).kind = .dataInstance ∧
      updateObject o i p s =
        (unpackInto o i (s.env.catalog.freshInstance (o, i)) p (createInstance o i s).1, true)) ∨
    (s.env.catalog.lookupInstance o i = none ∧ (s.env.catalog.freshInstance (o, i)).kind = .metadata ∧
      updateObject o i p s = (emit (.raised .castError) (createInstance o i s).1, false)) := by
  unfold updateObject
  cases hl : s.env.catalog.lookupInstance o i with
  | some x =>
    cases hk : x.kind with
    | dataInstance => exact .inl ⟨x, rfl, hk, by simp [hk]⟩
    | metadata => exact .inr (.inl ⟨x, rfl, hk, by simp [hk]⟩)
  | none =>
    cases hk : (s.env.catalog.freshInstance (o, i)).kind with
    | dataInstance => exact .inr (.inr (.inl ⟨rfl, rfl, by simp [createInstance, hk]⟩))
    | metadata => exact .inr (.inr (.inr ⟨rfl, rfl, by simp [createInstance, hk]⟩))

/-- What a reply does to the table (R172, R175): nothing, or the found transaction is closed and success is notified. -/
theorem replyReceived_cases (kind : Resp) (o : ObjId) (i : InstId) (s : State) :
    ((∀ k, s.txn.find o i = some k → s.txn.closable k kind i = false) ∧ replyReceived kind o i s = s) ∨
    ∃ k, s.txn.find o i = some k ∧ s.txn.closable k kind i = true ∧ replyReceived kind o i s = closeSuccess k s := by
  unfold replyReceived
  cases hf : s.txn.find o i with
  | none => exact .inl ⟨by simp, rfl⟩
  | some k =>
    cases hc : s.txn.closable k kind i with
    | false =>
      refine .inl ⟨?_, by simp [hc]⟩
      intro k' hk'
      cases hk'
      exact hc
    | true => exact .inr ⟨k, rfl, hc, by simp [hc]⟩

/-- A reply leaves the state alone where no transaction is found that it may close (R158, written out). -/
theorem replyReceived_stays {kind : Resp} {o : ObjId} {i : InstId} {s : State}
    (h : ∀ k, s.txn.find o i = some k → s.txn.get k.1 k.2 ≠ some kind ∨ (k.2 = 0xFFFF ∧ i ≠ 0)) :
    replyReceived kind o i s = s := by
  obtain ⟨-, h'⟩ | ⟨k, hf, hc, -⟩ := replyReceived_cases kind o i s
  · exact h'
  · simp only [TxnTable.closable, Config.allInstances, Bool.and_eq_true, Bool.or_eq_true, decide_eq_true_eq] at hc
    rcases h k hf with h | ⟨h, hi⟩
    · exact absurd hc.1 h
    · rcases hc.2 with hk | hk
      · exact absurd h (of_decide_eq_true hk)
      · exact absurd hk hi

/-- A reply closes the transaction it finds where that waits for its kind, for this instance or, with instance 0, for all
(R158, written out). -/
theorem replyReceived_closes {kind : Resp} {o : ObjId} {i : InstId} {k : TxnKey} {s : State} (hf : s.txn.find o i = some k)
    (hg : s.txn.get k.1 k.2 = some kind) (hk : k.2 ≠ 0xFFFF ∨ i = 0) : replyReceived kind o i s = closeSuccess k s := by
  have hc : s.txn.closable k kind i = true := by
    rcases hk with hk | hk <;> simp_all [TxnTable.closable, Config.allInstances]
  simp [replyReceived, hf, hc]

/-- The end of a completed frame is one counter and one outcome (R136). -/
theorem finishFrame_eq (t : FrameType) (o : ObjId) (i : InstId) (p : List Byte) (s : State) (ok : Bool) :
    finishFrame t o i p (s, ok) = s.reported t o i p ok := by
  cases ok <;> rfl

/-- What a branch of dispatch leaves alone, and what it puts out: at most one transaction is closed, with one success
notification that carries its key; the catalog changes only through creations and unpacks. -/
structure DispatchEffect (s t : State) : Prop where
  rx : t.rx = s.rx
  inbox : t.inbox = s.inbox
  objects : t.env.catalog.objects = s.env.catalog.objects
  rxBytes : t.stats.rxBytes = s.stats.rxBytes
  rxObjects : t.stats.rxObjects = s.stats.rxObjects
  rxErrors : t.stats.rxErrors = s.stats.rxErrors
  grows : Grows s t
  out : ∃ evs, t.out = s.out ++ evs ∧ (∀ oc, PortEvent.outcome oc ∉ evs) ∧
    ((evs.filter PortEvent.isNote = [] ∧ t.txn = s.txn) ∨
      ∃ k, (s.txn.get k.1 k.2).isSome = true ∧ evs.filter PortEvent.isNote = [.success k.1 k.2] ∧ t.txn = s.txn.close k) ∧
    ((∀ e ∈ evs, e.isCatalogChange = false) → t.env.catalog = s.env.catalog)

theorem DispatchEffect.of_txOnly {s t : State} (h : TxOnly s t) : DispatchEffect s t := by
  obtain ⟨evs, ho, he⟩ := h.out
  refine ⟨h.rx, h.inbox, by rw [h.catalog], h.rxBytes, h.rxObjects, h.rxErrors, h.grows, evs, ho, ?_, .inl ⟨?_, h.txn⟩,
    fun _ => h.catalog⟩
  · intro oc hoc
    rcases he _ hoc with h1 | ⟨n, h1⟩
    · cases h1
    · cases h1
  · rw [List.filter_eq_nil_iff]
    intro e hmem
    rcases he e hmem with h1 | ⟨n, rfl⟩
    · cases e <;> simp_all [PortEvent.isTx, PortEvent.isNote]
    · simp [PortEvent.isNote]

/-- A first piece without notification or table change, then a second piece. -/
theorem DispatchEffect.trans_quiet {s t u : State} (h : DispatchEffect s t) (h' : DispatchEffect t u)
    (hq : t.txn = s.txn ∧ ∃ evs, t.out = s.out ++ evs ∧ evs.filter PortEvent.isNote = []) : DispatchEffect s u := by
  obtain ⟨a, ha, ha1, -, ha3⟩ := h.out
  obtain ⟨b, hb, hb1, hb2, hb3⟩ := h'.out
  obtain ⟨htx, a', ha', han⟩ := hq
  have haa : a' = a := List.append_cancel_left (ha'.symm.trans ha)
  subst haa
  refine ⟨h'.rx.trans h.rx, h'.inbox.trans h.inbox, h'.objects.trans h.objects, h'.rxBytes.trans h.rxBytes,
    h'.rxObjects.trans h.rxObjects, h'.rxErrors.trans h.rxErrors, h.grows.trans h'.grows, a' ++ b,
    by rw [hb, ha, List.append_assoc], ?_, ?_, ?_⟩
  · intro oc hoc
    rcases List.mem_append.1 hoc with h1 | h1
    · exact ha1 oc h1
    · exact hb1 oc h1
  · rw [List.filter_append, han, List.nil_append, ← htx]
    exact hb2
  · intro hall
    rw [hb3 fun e he => hall e (List.mem_append_right _ he), ha3 fun e he => hall e (List.mem_append_left _ he)]

theorem DispatchEffect.refl (s : State) : DispatchEffect s s := DispatchEffect.of_txOnly (TxOnly.refl s)

theorem DispatchEffect.emit_raised (e : ErrorName) (s : State) : DispatchEffect s (emit (.raised e) s) :=
  ⟨rfl, rfl, rfl, rfl, rfl, rfl, Grows.of_eq rfl rfl, [.raised e], rfl, by simp, .inl ⟨by simp [PortEvent.isNote], rfl⟩,
    fun _ => rfl⟩

theorem DispatchEffect.createInstance (o : ObjId) (i : InstId) (s : State) : DispatchEffect s (createInstance o i s).1 :=
  ⟨rfl, rfl, rfl, rfl, rfl, rfl, Grows.of_eq rfl rfl, [.create o i], rfl, by simp,
    .inl ⟨by simp [PortEvent.isNote], rfl⟩, fun h => by simp [PortEvent.isCatalogChange] at h⟩

theorem DispatchEffect.unpackInto (o : ObjId) (i : InstId) (x : Stored) (p : List Byte) (s : State) :
    DispatchEffect s (unpackInto o i x p s) :=
  ⟨rfl, rfl, rfl, rfl, rfl, rfl, Grows.of_eq rfl rfl, [.unpack o i p], rfl, by simp,
    .inl ⟨by simp [PortEvent.isNote], rfl⟩, fun h => by simp [PortEvent.isCatalogChange] at h⟩

theorem DispatchEffect.closeSuccess {k : TxnKey} {s : State} (h : (s.txn.get k.1 k.2).isSome = true) :
    DispatchEffect s (closeSuccess k s) :=
  ⟨rfl, rfl, rfl, rfl, rfl, rfl, Grows.of_eq rfl rfl, [.success k.1 k.2], rfl, by simp,
    .inr ⟨k, h, by simp [PortEvent.isNote], rfl⟩, fun _ => rfl⟩

/-- An update closes no transaction and notifies nothing. -/
theorem updateObject_effect (o : ObjId) (i : InstId) (p : List Byte) (s : State) :
    DispatchEffect s (updateObject o i p s).1 ∧ (updateObject o i p s).1.txn = s.txn ∧
      ∃ evs, (updateObject o i p s).1.out = s.out ++ evs ∧ evs.filter PortEvent.isNote = [] := by
  have hc : (createInstance o i s).1.txn = s.txn ∧ ∃ evs, (createInstance o i s).1.out = s.out ++ evs ∧
      evs.filter PortEvent.isNote = [] := ⟨rfl, [.create o i], rfl, by simp [PortEvent.isNote]⟩
  obtain ⟨x, -, -, h⟩ | ⟨x, -, -, h⟩ | ⟨-, -, h⟩ | ⟨-, -, h⟩ := updateObject_cases o i p s <;> rw [h]
  · exact ⟨DispatchEffect.unpackInto o i x p s, rfl, _, rfl, by simp [PortEvent.isNote]⟩
  · exact ⟨DispatchEffect.emit_raised _ s, rfl, _, rfl, by simp [PortEvent.isNote]⟩
  · exact ⟨(DispatchEffect.createInstance o i s).trans_quiet (DispatchEffect.unpackInto o i _ p _) hc, rfl,
      [.create o i, .unpack o i p], by simp, by simp [PortEvent.isNote]⟩
  · exact ⟨(DispatchEffect.createInstance o i s).trans_quiet (DispatchEffect.emit_raised _ _) hc, rfl,
      [.create o i, .raised .castError], by simp, by simp [PortEvent.isNote]⟩

theorem replyReceived_effect (kind : Resp) (o : ObjId) (i : InstId) (s : State) :
    DispatchEffect s (replyReceived kind o i s) := by
  obtain ⟨-, h⟩ | ⟨k, hk, -, h⟩ := replyReceived_cases kind o i s
  · rw [h]
    exact DispatchEffect.refl s
  · rw [h]
    exact DispatchEffect.closeSuccess (TxnTable.find_some hk).1

theorem dispatchObj_effect (o : ObjId) (i : InstId) (p : List Byte) (s : State) :
    DispatchEffect s (dispatchObj o i p s).1 := by
  obtain ⟨h, hq⟩ := updateObject_effect o i p s
  unfold dispatchObj
  split
  · exact DispatchEffect.emit_raised _ s
  · split
    · rename_i s' heq
      rw [heq] at h
      exact h
    · rename_i s' heq
      rw [heq] at h hq
      exact h.trans_quiet (replyReceived_effect .obj o i s') hq

theorem dispatchObjAck_effect (o : ObjId) (i : InstId) (p : List Byte) (s : State) :
    DispatchEffect s (dispatchObjAck o i p s).1 := by
  obtain ⟨h, hq⟩ := updateObject_effect o i p s
  unfold dispatchObjAck
  split
  · exact DispatchEffect.emit_raised _ s
  · split
    rename_i s' ok heq
    rw [heq] at h hq
    exact h.trans_quiet (DispatchEffect.of_txOnly (transmitSingle_txOnly .ack o i s')) hq

theorem dispatchObjReq_txOnly (o : ObjId) (i : InstId) (s : State) : TxOnly s (dispatchObjReq o i s).1 := by
  have h := sendObject_unacked_txOnly o (requestTarget i) (decide (i = Config.allInstances)) s
  unfold dispatchObjReq
  split
  · split
    · rename_i s' heq
      rw [heq] at h
      exact h
    · rename_i s' e heq
      rw [heq] at h
      exact h.trans (transmitSingle_txOnly .nack o i s')
  · exact transmitSingle_txOnly .nack o i s

theorem dispatchAck_effect (o : ObjId) (i : InstId) (s : State) : DispatchEffect s (dispatchAck o i s).1 := by
  unfold dispatchAck
  split
  · exact DispatchEffect.emit_raised _ s
  · exact replyReceived_effect .ack o i s

theorem dispatchNack_effect (o : ObjId) (i : InstId) (s : State) : DispatchEffect s (dispatchNack o i s).1 := by
  unfold dispatchNack
  cases hf : s.txn.find o i with
  | none => exact DispatchEffect.refl s
  | some k => exact DispatchEffect.closeSuccess (TxnTable.find_some hf).1

/-- Whatever the frame type, dispatch has such an effect (R170, R177). -/
theorem dispatch_effect (t : FrameType) (o : ObjId) (i : InstId) (p : List Byte) (s : State) :
    DispatchEffect s (dispatch t o i p s).1 := by
  cases t with
  | obj => exact dispatchObj_effect o i p s
  | objReq => exact DispatchEffect.of_txOnly (dispatchObjReq_txOnly o i s)
  | objAck => exact dispatchObjAck_effect o i p s
  | ack => exact dispatchAck_effect o i s
  | nack => exact dispatchNack_effect o i s

end Sys2Proof.Machine
end

