-- ==== Sys2Proof/Laws/Memory.lean ====
section
/-! SUPPORT. The payload buffer: read after write, the canonical form is kept, and prefixes. -/

namespace Sys2Proof.Machine

@[simp] theorem Memory.read_nil (a : Nat) : Memory.read [] a = 0 := rfl

theorem Memory.read_cons (c : Host.Cell) (m : Memory) (a : Nat) :
    Memory.read (c :: m) a = if c.1 = a then c.2 else Memory.read m a := rfl

theorem Memory.wfFrom_cons (lo : Nat) (c : Host.Cell) (m : Memory) :
    Memory.wfFrom lo (c :: m) = true ↔
      lo ≤ c.1 ∧ c.1 < Config.maxPayload ∧ c.2 ≠ 0 ∧ Memory.wfFrom (c.1 + 1) m = true := by
  simp [Memory.wfFrom, and_assoc]

/-- A lower bound may be lowered. -/
theorem Memory.wfFrom_mono {lo lo' : Nat} (h : lo' ≤ lo) :
    ∀ {m : Memory}, Memory.wfFrom lo m = true → Memory.wfFrom lo' m = true
  | [], _ => rfl
  | c :: m, hm => by
    rw [Memory.wfFrom_cons] at hm ⊢
    exact ⟨by omega, hm.2⟩

/-- An index below every listed one reads as the reset contents. -/
theorem Memory.read_below {lo a : Nat} (h : a < lo) : ∀ {m : Memory}, Memory.wfFrom lo m = true → Memory.read m a = 0
  | [], _ => rfl
  | c :: m, hm => by
    rw [Memory.wfFrom_cons] at hm
    rw [Memory.read_cons, if_neg (by omega)]
    exact Memory.read_below (lo := c.1 + 1) (by omega) hm.2.2.2

theorem Memory.write_wfFrom {lo a : Nat} {v : Byte} (ha : lo ≤ a) (hb : a < Config.maxPayload) :
    ∀ {m : Memory}, Memory.wfFrom lo m = true → Memory.wfFrom lo (Memory.write a v m) = true
  | [], _ => by
    unfold Memory.write
    split
    · rfl
    · rename_i hv
      rw [Memory.wfFrom_cons]
      exact ⟨ha, hb, hv, rfl⟩
  | c :: m, hm => by
    have hc := (Memory.wfFrom_cons lo c m).1 hm
    unfold Memory.write
    split
    · split
      · exact hm
      · rename_i hlt hv
        rw [Memory.wfFrom_cons, Memory.wfFrom_cons]
        exact ⟨ha, hb, hv, hlt, hc.2⟩
    · split
      · split
        · exact Memory.wfFrom_mono (by omega) hc.2.2.2
        · rename_i heq hv
          subst heq
          rw [Memory.wfFrom_cons]
          exact ⟨ha, hb, hv, hc.2.2.2⟩
      · rw [Memory.wfFrom_cons]
        exact ⟨hc.1, hc.2.1, hc.2.2.1, Memory.write_wfFrom (by omega) hb hc.2.2.2⟩

/-- A write inside the buffer keeps the canonical form. -/
theorem Memory.write_wf {a : Nat} {v : Byte} {m : Memory} (ha : a < Config.maxPayload) (hm : m.wf = true) :
    (Memory.write a v m).wf = true :=
  Memory.write_wfFrom (Nat.zero_le a) ha hm

theorem Memory.read_write_same_from {lo a : Nat} {v : Byte} :
    ∀ {m : Memory}, Memory.wfFrom lo m = true → Memory.read (Memory.write a v m) a = v
  | [], _ => by
    unfold Memory.write
    split
    · rename_i hv
      exact hv.symm
    · simp [Memory.read_cons]
  | c :: m, hm => by
    have hc := (Memory.wfFrom_cons lo c m).1 hm
    unfold Memory.write
    split
    · rename_i hlt
      split
      · rename_i hv
        rw [hv, Memory.read_cons, if_neg (by omega)]
        exact Memory.read_below (lo := c.1 + 1) (by omega) hc.2.2.2
      · simp [Memory.read_cons]
    · split
      · rename_i heq
        split
        · rename_i hv
          rw [hv]
          exact Memory.read_below (lo := c.1 + 1) (by omega) hc.2.2.2
        · simp [Memory.read_cons]
      · rename_i hne
        rw [Memory.read_cons, if_neg (Ne.symm hne)]
        exact Memory.read_write_same_from hc.2.2.2

/-- A byte reads as it was written. -/
theorem Memory.read_write_same {a : Nat} {v : Byte} {m : Memory} (hm : m.wf = true) :
    Memory.read (Memory.write a v m) a = v :=
  Memory.read_write_same_from hm

/-- A write leaves every other byte alone. -/
theorem Memory.read_write_other {a b : Nat} (h : b ≠ a) (v : Byte) :
    ∀ m : Memory, Memory.read (Memory.write a v m) b = Memory.read m b
  | [] => by
    unfold Memory.write
    split
    · rfl
    · rw [Memory.read_cons, if_neg (Ne.symm h)]
  | c :: m => by
    unfold Memory.write
    split
    · split
      · rfl
      · rw [Memory.read_cons, if_neg (Ne.symm h)]
    · split
      · rename_i heq
        subst heq
        split
        · rw [Memory.read_cons, if_neg (Ne.symm h)]
        · rw [Memory.read_cons, Memory.read_cons, if_neg (Ne.symm h), if_neg (Ne.symm h)]
      · rw [Memory.read_cons, Memory.read_cons, Memory.read_write_other h v m]

theorem Memory.firstBytes_length (m : Memory) (n : Nat) : (m.firstBytes n).length = n := by
  simp [Memory.firstBytes]

@[simp] theorem Memory.firstBytes_zero (m : Memory) : m.firstBytes 0 = [] := rfl

theorem Memory.firstBytes_succ (m : Memory) (n : Nat) : m.firstBytes (n + 1) = m.firstBytes n ++ [m.read n] := by
  simp [Memory.firstBytes, List.range_succ]

/-- A write at or above `n` leaves the first `n` bytes alone. -/
theorem Memory.firstBytes_write {n a : Nat} (h : n ≤ a) (v : Byte) (m : Memory) :
    (Memory.write a v m).firstBytes n = m.firstBytes n := by
  refine List.map_congr_left fun i hi => ?_
  have hi' : i < n := List.mem_range.1 hi
  exact Memory.read_write_other (by omega) v m

/-- Writing byte `n` extends the first `n` bytes by it. -/
theorem Memory.firstBytes_write_succ {n : Nat} {v : Byte} {m : Memory} (hm : m.wf = true) :
    (Memory.write n v m).firstBytes (n + 1) = m.firstBytes n ++ [v] := by
  rw [Memory.firstBytes_succ, Memory.firstBytes_write (Nat.le_refl n), Memory.read_write_same hm]

theorem Memory.writeAll_wf : ∀ {p : List Byte} {a : Nat} {m : Memory}, a + p.length ≤ Config.maxPayload →
    m.wf = true → (Memory.writeAll a p m).wf = true
  | [], _, _, _, hm => hm
  | b :: p, a, m, h, hm => by
    have h' : a + (p.length + 1) ≤ Config.maxPayload := h
    exact Memory.writeAll_wf (p := p) (a := a + 1) (m := Memory.write a b m) (by omega) (Memory.write_wf (by omega) hm)

theorem Memory.firstBytes_writeAll : ∀ (p : List Byte) {a : Nat} {m : Memory}, a + p.length ≤ Config.maxPayload →
    m.wf = true → (Memory.writeAll a p m).firstBytes (a + p.length) = m.firstBytes a ++ p
  | [], a, m, _, _ => by simp [Memory.writeAll]
  | b :: p, a, m, h, hm => by
    have h' : a + (p.length + 1) ≤ Config.maxPayload := h
    have := Memory.firstBytes_writeAll p (a := a + 1) (m := Memory.write a b m) (by omega)
      (Memory.write_wf (by omega) hm)
    rw [Memory.writeAll, List.length_cons, show a + (p.length + 1) = a + 1 + p.length from by omega, this,
      Memory.firstBytes_write_succ hm]
    simp

/-- The reset buffer is in canonical form. -/
theorem Rx.reset_buf_wf : Rx.reset.buf.wf = true := rfl

end Sys2Proof.Machine
end

