-- ==== Sys2Proof/Laws/Operands.lean ====
section
/-! SUPPORT. The five type bytes. -/

namespace Sys2Proof

@[simp] theorem FrameType.ofByte_byte (t : FrameType) : FrameType.ofByte t.byte = some t := by
  cases t <;> decide

/-- A type byte is accepted as the type it is the byte of. -/
theorem FrameType.byte_of_ofByte {b : Byte} {t : FrameType} (h : FrameType.ofByte b = some t) : b = t.byte := by
  unfold FrameType.ofByte at h
  repeat' (split at h)
  all_goals first
    | (cases h; rename_i hb; subst hb; decide)
    | cases h

/-- `TYPE = VER ++ KIND` for each type, as R80 prints it. -/
theorem FrameType.byte_values : FrameType.obj.byte = 0x20 ∧ FrameType.objReq.byte = 0x21 ∧
    FrameType.objAck.byte = 0x22 ∧ FrameType.ack.byte = 0x23 ∧ FrameType.nack.byte = 0x24 := by decide

end Sys2Proof
end

