-- ==== Sys2Proof/Laws/PerInstr.lean ====
section
/-! SUPPORT. Statements made once per instruction, about its encoding: the bytes it begins with, and how many it has. -/

namespace Sys2Proof.Laws.EncodeTag

open Sys2Proof

/-- The first bytes of each instruction: sync byte and type byte of a frame (R71, R80), the code of a host operation
(R85). -/
def tag : Instr → List Byte
  | .obj _ _ _ => [0x3C, 0x20]
  | .objReq _ _ => [0x3C, 0x21]
  | .objAck _ _ _ => [0x3C, 0x22]
  | .ack _ _ => [0x3C, 0x23]
  | .nack _ _ => [0x3C, 0x24]
  | .crc8Update _ _ => [0]
  | .crc8UpdateMany _ _ => [1]
  | .buildFrame _ _ _ _ => [2]
  | .feedByte _ => [3]
  | .sendObject _ _ _ _ => [4]
  | .sendRequest _ _ _ => [5]
  | .cancelTransaction _ _ => [6]
  | .statsReset => [7]
  | .statsRead => [8]

/-- The encoding begins with the instruction's tag. -/
def Statement (i : Instr) : Prop := ∃ rest, encode i = tag i ++ rest

theorem obj (o : ObjId) (i : InstId) (p : List Byte) : Statement (.obj o i p) := ⟨_, rfl⟩
theorem objReq (o : ObjId) (i : InstId) : Statement (.objReq o i) := ⟨_, rfl⟩
theorem objAck (o : ObjId) (i : InstId) (p : List Byte) : Statement (.objAck o i p) := ⟨_, rfl⟩
theorem ack (o : ObjId) (i : InstId) : Statement (.ack o i) := ⟨_, rfl⟩
theorem nack (o : ObjId) (i : InstId) : Statement (.nack o i) := ⟨_, rfl⟩
theorem crc8Update (c b : Byte) : Statement (.crc8Update c b) := ⟨_, rfl⟩
theorem crc8UpdateMany (c : Byte) (data : List Byte) : Statement (.crc8UpdateMany c data) := ⟨_, rfl⟩
theorem buildFrame (t : FrameType) (o : ObjId) (i : InstId) (data : List Byte) : Statement (.buildFrame t o i data) :=
  ⟨_, rfl⟩
theorem feedByte (b : Byte) : Statement (.feedByte b) := ⟨_, rfl⟩
theorem sendObject (o : ObjId) (i : InstId) (acked all : Bool) : Statement (.sendObject o i acked all) := ⟨_, rfl⟩
theorem sendRequest (o : ObjId) (i : InstId) (all : Bool) : Statement (.sendRequest o i all) := ⟨_, rfl⟩
theorem cancelTransaction (o : ObjId) (i : InstId) : Statement (.cancelTransaction o i) := ⟨_, rfl⟩
theorem statsReset : Statement .statsReset := ⟨_, rfl⟩
theorem statsRead : Statement .statsRead := ⟨_, rfl⟩

end Sys2Proof.Laws.EncodeTag

namespace Sys2Proof.Laws.EncodeLength

open Sys2Proof

/-- How many bytes each instruction takes: `11 + n` for a frame (R54), the layout of log 4 for a host operation. -/
def size : Instr → Nat
  | .obj _ _ p => 11 + p.length
  | .objReq _ _ => 11
  | .objAck _ _ p => 11 + p.length
  | .ack _ _ => 11
  | .nack _ _ => 11
  | .crc8Update _ _ => 3
  | .crc8UpdateMany _ data => 2 + data.length
  | .buildFrame _ _ _ data => 8 + data.length
  | .feedByte _ => 2
  | .sendObject _ _ _ _ => 8
  | .sendRequest _ _ _ => 8
  | .cancelTransaction _ _ => 7
  | .statsReset => 1
  | .statsRead => 1

/-- The encoding has exactly that many bytes. -/
def Statement (i : Instr) : Prop := (encode i).length = size i

theorem obj (o : ObjId) (i : InstId) (p : List Byte) : Statement (.obj o i p) := Machine.frameBytes_length .obj o i p
theorem objReq (o : ObjId) (i : InstId) : Statement (.objReq o i) := Machine.frameBytes_length .objReq o i []
theorem objAck (o : ObjId) (i : InstId) (p : List Byte) : Statement (.objAck o i p) :=
  Machine.frameBytes_length .objAck o i p
theorem ack (o : ObjId) (i : InstId) : Statement (.ack o i) := Machine.frameBytes_length .ack o i []
theorem nack (o : ObjId) (i : InstId) : Statement (.nack o i) := Machine.frameBytes_length .nack o i []
theorem crc8Update (c b : Byte) : Statement (.crc8Update c b) := rfl
theorem crc8UpdateMany (c : Byte) (data : List Byte) : Statement (.crc8UpdateMany c data) := by
  simp [Statement, encode, size]
  omega
theorem buildFrame (t : FrameType) (o : ObjId) (i : InstId) (data : List Byte) : Statement (.buildFrame t o i data) := by
  simp [Statement, encode, size]
  omega
theorem feedByte (b : Byte) : Statement (.feedByte b) := rfl
theorem sendObject (o : ObjId) (i : InstId) (acked all : Bool) : Statement (.sendObject o i acked all) := rfl
theorem sendRequest (o : ObjId) (i : InstId) (all : Bool) : Statement (.sendRequest o i all) := rfl
theorem cancelTransaction (o : ObjId) (i : InstId) : Statement (.cancelTransaction o i) := rfl
theorem statsReset : Statement .statsReset := rfl
theorem statsRead : Statement .statsRead := rfl

end Sys2Proof.Laws.EncodeLength
end

