-- ==== Sys2Proof/Laws/Receive.lean ====
section
/-! SUPPORT. The receive machine: everything the rule of one state can do, said once. -/

namespace Sys2Proof.Machine

@[simp] theorem Rx.fold_state (b : Byte) (r : Rx) : (r.fold b).state = r.state := rfl
@[simp] theorem Rx.fold_crc (b : Byte) (r : Rx) : (r.fold b).crc = crc8Update r.crc b := rfl
@[simp] theorem Rx.fold_type (b : Byte) (r : Rx) : (r.fold b).type = r.type := rfl
@[simp] theorem Rx.fold_size (b : Byte) (r : Rx) : (r.fold b).size = r.size := rfl
@[simp] theorem Rx.fold_objid (b : Byte) (r : Rx) : (r.fold b).objid = r.objid := rfl
@[simp] theorem Rx.fold_instid (b : Byte) (r : Rx) : (r.fold b).instid = r.instid := rfl
@[simp] theorem Rx.fold_count (b : Byte) (r : Rx) : (r.fold b).count = r.count := rfl
@[simp] theorem Rx.fold_expected (b : Byte) (r : Rx) : (r.fold b).expected = r.expected := rfl
@[simp] theorem Rx.fold_pktlen (b : Byte) (r : Rx) : (r.fold b).pktlen = r.pktlen + 1 := rfl
@[simp] theorem Rx.fold_objMeta (b : Byte) (r : Rx) : (r.fold b).objMeta = r.objMeta := rfl
@[simp] theorem Rx.fold_buf (b : Byte) (r : Rx) : (r.fold b).buf = r.buf := rfl

/-- The accumulator invariant as an equation (R22, R39). -/
theorem Rx.crcAgrees_iff (r : Rx) : r.crcAgrees = true ↔ r.crc = crc8 r.consumed := by simp [Rx.crcAgrees]

/-- What the rule of a state does beside the receive registers: it writes them, or it writes them and counts and labels one
error (R122 to R129, R236). -/
structure RxOnly (s t : State) : Prop where
  txn : t.txn = s.txn
  params : t.params = s.params
  env : t.env = s.env
  inbox : t.inbox = s.inbox
  effect : (t.stats = s.stats ∧ t.out = s.out ∧ t.rx.state ≠ .error ∧ t.rx.state ≠ .sync) ∨
    ∃ e, t.stats = { s.stats with rxErrors := satInc s.params.statW s.stats.rxErrors 1 } ∧
      t.out = s.out ++ [.raised e] ∧ (t.rx.state = .error ∨ t.rx.state = .sync)

theorem RxOnly.of_rx (s : State) (r : Rx) (h : r.state ≠ .error) (h' : r.state ≠ .sync) : RxOnly s { s with rx := r } :=
  ⟨rfl, rfl, rfl, rfl, .inl ⟨rfl, rfl, h, h'⟩⟩

theorem RxOnly.enterError (e : ErrorName) (s : State) (r : Rx) : RxOnly s (enterError e { s with rx := r }) :=
  ⟨rfl, rfl, rfl, rfl, .inr ⟨e, rfl, rfl, .inl rfl⟩⟩

theorem RxOnly.rejectToSync (e : ErrorName) (s : State) (r : Rx) : RxOnly s (rejectToSync e { s with rx := r }) :=
  ⟨rfl, rfl, rfl, rfl, .inr ⟨e, rfl, rfl, .inr rfl⟩⟩

theorem rxSync_only (b : Byte) (s : State) : RxOnly s (rxSync b s) := by
  unfold rxSync
  split
  · exact RxOnly.of_rx s _ (by simp) (by simp)
  · exact RxOnly.rejectToSync _ s s.rx

theorem rxType_only (b : Byte) (s : State) : RxOnly s (rxType b s) := by
  unfold rxType
  split
  · exact RxOnly.of_rx s _ (by simp) (by simp)
  · exact RxOnly.rejectToSync _ s _

theorem rxSize_only {b : Byte} {s : State} (h : s.rx.state = .size) : RxOnly s (rxSize b s) := by
  unfold rxSize
  split
  · exact RxOnly.of_rx s _ (by simp [h]) (by simp [h])
  · dsimp only
    split
    · exact RxOnly.enterError _ s _
    · exact RxOnly.of_rx s _ (by simp) (by simp)

theorem rxObjectId_only {b : Byte} {s : State} (h : s.rx.state = .objectId) : RxOnly s (rxObjectId b s) := by
  unfold rxObjectId
  split
  · exact RxOnly.of_rx s _ (by simp) (by simp)
  · exact RxOnly.of_rx s _ (by simp [h]) (by simp [h])

/-- Everything payload length discovery can do (R127, R235), in the order of its checks. -/
theorem rxDiscover_cases (s : State) :
    (s.env.catalog.lookup s.rx.objid = none ∧ rxDiscover s = enterError .unknownObject s) ∨
    ∃ m, s.env.catalog.lookup s.rx.objid = some m ∧
      ((256 ≤ expectedLength s.rx.type m ∧
          rxDiscover s = enterError .payloadTooLarge { s with rx := { s.rx with objMeta := some m } }) ∨
       (expectedLength s.rx.type m ≤ 255 ∧ 10 + expectedLength s.rx.type m ≠ s.rx.size.toNat ∧
          rxDiscover s = enterError .lengthMismatch { s with rx := { s.rx with objMeta := some m } }) ∨
       (expectedLength s.rx.type m ≤ 255 ∧ 10 + expectedLength s.rx.type m = s.rx.size.toNat ∧
          rxDiscover s = { s with rx := { s.rx with
            objMeta := some m
            expected := BitVec.ofNat 8 (expectedLength s.rx.type m)
            state := if 0 < expectedLength s.rx.type m then .data else .checksum } })) := by
  unfold rxDiscover
  cases hl : s.env.catalog.lookup s.rx.objid with
  | none => exact .inl ⟨rfl, rfl⟩
  | some m =>
    refine .inr ⟨m, rfl, ?_⟩
    dsimp only
    by_cases h1 : 255 < expectedLength s.rx.type m
    · exact .inl ⟨by omega, by rw [if_pos (show Config.maxPayload < _ from h1)]⟩
    · refine .inr ?_
      rw [if_neg (show ¬Config.maxPayload < _ from h1)]
      by_cases h2 : 10 + expectedLength s.rx.type m ≠ s.rx.size.toNat
      · exact .inl ⟨by omega, h2, by rw [if_pos (show Config.headerLen + _ ≠ _ from h2)]⟩
      · exact .inr ⟨by omega, by omega, by rw [if_neg (show ¬Config.headerLen + _ ≠ _ from h2)]⟩

theorem rxDiscover_only (s : State) : RxOnly s (rxDiscover s) := by
  obtain ⟨-, h⟩ | ⟨m, -, ⟨-, h⟩ | ⟨-, -, h⟩ | ⟨-, -, h⟩⟩ := rxDiscover_cases s <;> rw [h]
  · exact RxOnly.enterError _ s s.rx
  · exact RxOnly.enterError _ s _
  · exact RxOnly.enterError _ s _
  · refine RxOnly.of_rx s _ ?_ ?_ <;> dsimp only <;> split <;> simp

theorem rxInstanceId_only {b : Byte} {s : State} (h : s.rx.state = .instanceId) : RxOnly s (rxInstanceId b s) := by
  unfold rxInstanceId
  split
  · exact RxOnly.of_rx s _ (by simp [h]) (by simp [h])
  · have := rxDiscover_only { s with rx := { s.rx.fold b with instid := putHigh s.rx.instid b, count := 0 } }
    exact ⟨this.txn, this.params, this.env, this.inbox, this.effect⟩

theorem rxData_only {b : Byte} {s : State} (h : s.rx.state = .data) : RxOnly s (rxData b s) := by
  unfold rxData
  dsimp only
  split
  · exact RxOnly.of_rx s _ (by simp) (by simp)
  · exact RxOnly.of_rx s _ (by simp [h]) (by simp [h])

/-- Everything state `Checksum` can do before dispatch (R129, R235). -/
theorem rxChecksum_cases (b : Byte) (s : State) :
    (b ≠ s.rx.crc ∧
      rxChecksum b s = enterError .badChecksum { s with rx := { s.rx with pktlen := s.rx.pktlen + 1 } }) ∨
    (b = s.rx.crc ∧ (s.rx.pktlen + 1).toNat ≠ s.rx.size.toNat + 1 ∧
      rxChecksum b s = enterError .byteCount { s with rx := { s.rx with pktlen := s.rx.pktlen + 1 } }) ∨
    (b = s.rx.crc ∧ (s.rx.pktlen + 1).toNat = s.rx.size.toNat + 1 ∧
      rxChecksum b s = { s with rx := { s.rx with pktlen := s.rx.pktlen + 1, state := .complete } }) := by
  unfold rxChecksum
  dsimp only
  by_cases h1 : b ≠ s.rx.crc
  · exact .inl ⟨h1, by rw [if_pos h1]⟩
  · refine .inr ?_
    rw [if_neg h1]
    by_cases h2 : (s.rx.pktlen + 1).toNat ≠ s.rx.size.toNat + 1
    · exact .inl ⟨by simpa using h1, h2, by rw [if_pos h2]⟩
    · exact .inr ⟨by simpa using h1, by simpa using h2, by rw [if_neg h2]; rfl⟩

theorem rxChecksum_only (b : Byte) (s : State) : RxOnly s (rxChecksum b s) := by
  obtain ⟨-, h⟩ | ⟨-, -, h⟩ | ⟨-, -, h⟩ := rxChecksum_cases b s <;> rw [h]
  · exact RxOnly.enterError _ s _
  · exact RxOnly.enterError _ s _
  · exact RxOnly.of_rx s _ (by simp) (by simp)

/-- The end of a step that completed no frame: `Discarded` after an error, `AwaitingMore` otherwise (R132). -/
theorem returnOutcome_of_only {s t : State} (h : RxOnly s t) (hc : t.rx.state ≠ .complete) :
    (t.stats = s.stats ∧ (returnOutcome t).out = s.out ++ [.outcome .awaitingMore]) ∨
    ∃ e, t.stats = { s.stats with rxErrors := satInc s.params.statW s.stats.rxErrors 1 } ∧
      (returnOutcome t).out = s.out ++ [.raised e, .outcome .discarded] := by
  obtain ⟨hst, ho, h1, h2⟩ | ⟨e, hst, ho, h1⟩ := h.effect
  · refine .inl ⟨hst, ?_⟩
    rw [returnOutcome_out, ho]
    cases hs : t.rx.state <;> simp_all [RxState.inProgress]
  · refine .inr ⟨e, hst, ?_⟩
    rw [returnOutcome_out, ho]
    rcases h1 with h1 | h1 <;> simp [h1, RxState.inProgress]

/-- A step that returns no frame, as `feedInState` ends it, in terms of the state before it. -/
def Unfinished (s t : State) : Prop :=
  t.txn = s.txn ∧ t.params = s.params ∧ t.env = s.env ∧ t.inbox = s.inbox ∧
    ((t.stats = s.stats ∧ t.out = s.out ++ [.outcome .awaitingMore]) ∨
      ∃ e, t.stats = { s.stats with rxErrors := satInc s.params.statW s.stats.rxErrors 1 } ∧
        t.out = s.out ++ [.raised e, .outcome .discarded])

theorem RxOnly.unfinished {s t : State} (h : RxOnly s t) (hc : t.rx.state ≠ .complete) : Unfinished s (returnOutcome t) :=
  ⟨h.txn, h.params, h.env, h.inbox, returnOutcome_of_only h hc⟩

/-- Everything one byte can do after the prologue (R120): a stop in a state no run reaches, a step that returns no frame, or
a completed frame that is dispatched. -/
theorem feedInState_cases (b : Byte) (s : State) :
    (s.rx.state = .data ∧ s.rx.count = 255 ∧ feedInState b s = .fault .bufferIndex) ∨
    (∃ t, feedInState b s = .next t ∧ Unfinished s t) ∨
    (s.rx.state = .checksum ∧ b = s.rx.crc ∧ (s.rx.pktlen + 1).toNat = s.rx.size.toNat + 1 ∧
      feedInState b s = completeFrame { s with rx := { s.rx with pktlen := s.rx.pktlen + 1, state := .complete } }) := by
  unfold feedInState
  cases hs : s.rx.state with
  | sync => exact .inr (.inl ⟨_, rfl, (rxSync_only b s).unfinished (by unfold rxSync; split <;> simp)⟩)
  | type => exact .inr (.inl ⟨_, rfl, (rxType_only b s).unfinished (by unfold rxType; split <;> simp)⟩)
  | size =>
    refine .inr (.inl ⟨_, rfl, (rxSize_only hs).unfinished ?_⟩)
    unfold rxSize
    split
    · simp [hs]
    · dsimp only
      split <;> simp
  | objectId =>
    refine .inr (.inl ⟨_, rfl, (rxObjectId_only hs).unfinished ?_⟩)
    unfold rxObjectId
    split <;> simp [hs]
  | instanceId =>
    refine .inr (.inl ⟨_, rfl, (rxInstanceId_only hs).unfinished ?_⟩)
    unfold rxInstanceId
    split
    · simp [hs]
    · obtain ⟨-, h⟩ | ⟨m, -, ⟨-, h⟩ | ⟨-, -, h⟩ | ⟨-, -, h⟩⟩ := rxDiscover_cases
        { s with rx := { s.rx.fold b with instid := putHigh s.rx.instid b, count := 0 } } <;> rw [h]
      · simp
      · simp
      · simp
      · dsimp only
        split <;> simp
  | data =>
    by_cases hc : s.rx.count = 255
    · exact .inl ⟨rfl, hc, by simp [hc]⟩
    · refine .inr (.inl ⟨_, by simp only [hc, if_false]; rfl, (rxData_only hs).unfinished ?_⟩)
      unfold rxData
      dsimp only
      split <;> simp [hs]
  | checksum =>
    obtain ⟨-, h⟩ | ⟨-, -, h⟩ | ⟨h1, h2, h⟩ := rxChecksum_cases b s
    · refine .inr (.inl ⟨_, by rw [h]; simp only [enterError_rx]; rfl, ?_⟩)
      rw [← h]
      exact (rxChecksum_only b s).unfinished (by rw [h]; simp)
    · refine .inr (.inl ⟨_, by rw [h]; simp only [enterError_rx]; rfl, ?_⟩)
      rw [← h]
      exact (rxChecksum_only b s).unfinished (by rw [h]; simp)
    · exact .inr (.inr ⟨rfl, h1, h2, by rw [h]; simp⟩)
  | complete => exact .inr (.inl ⟨_, rfl, (rxSync_only b s).unfinished (by unfold rxSync; split <;> simp)⟩)
  | error => exact .inr (.inl ⟨_, rfl, (rxSync_only b s).unfinished (by unfold rxSync; split <;> simp)⟩)

/-- What completion answers (R136): dispatch by the type register, unless no rule exists for it. -/
theorem completeFrame_cases (s : State) :
    (FrameType.ofByte s.rx.type = none ∧ completeFrame s = .fault .noDispatchRule) ∨
    ∃ t, FrameType.ofByte s.rx.type = some t ∧ completeFrame s =
      .next (finishFrame t s.rx.objid s.rx.instid s.rx.payload (dispatch t s.rx.objid s.rx.instid s.rx.payload s)) := by
  unfold completeFrame
  cases FrameType.ofByte s.rx.type with
  | none => exact .inl ⟨rfl, rfl⟩
  | some t => exact .inr ⟨t, rfl, rfl⟩

end Sys2Proof.Machine
end

