-- ==== Sys2Proof/Tests/Slice0.lean ====
section
/-! SUPPORT. Tests. Expected values are those spec/95_test_vectors.md prints (the vector is named in each docstring), or hand
reading of a rule; `test_witness_…` shows that the hypotheses of a statement can be met together. -/

namespace Sys2Proof.Tests

open Sys2Proof.Machine

/-! A small world: part of catalog `K` of the test vectors, an accepting sink, unbounded parameters. -/

/-- An instance that is a `DataInstance` and packs. -/
def data (p : List Byte) : Stored := ⟨.dataInstance, p, true⟩

/-- Objects 1, 7, 8 and 9 of catalog `K`, one of 255 and one of 256 bytes without an instance, and object 10 with a metadata
handle, a handle that does not pack, and one that packs to 256 bytes. -/
def catK : Catalog :=
  { objects := [(1, ⟨0, true⟩), (7, ⟨1, false⟩), (8, ⟨2, true⟩), (9, ⟨0, true⟩), (10, ⟨1, false⟩), (0x100, ⟨256, true⟩),
      (0x101, ⟨255, true⟩)]
    stored := [((1, 0), data []), ((7, 0), data [0xA0]), ((7, 1), data [0xA1]), ((7, 2), data [0xA2]),
      ((8, 0), data [0, 0]), ((10, 0), ⟨.metadata, [], true⟩), ((10, 1), ⟨.dataInstance, [], false⟩),
      ((10, 2), data (List.replicate 256 0)), ((10, 3), data [0xB3])]
    fresh := [] }

/-- Reset, with the catalog and an accepting sink attached. -/
def ready : State :=
  { State.reset with
    params := { txnDepth := .unbounded, statW := .unbounded }
    env := { catalog := catK, sink := { answers := [], after := true } } }

/-- The same with a sink that rejects. -/
def rejecting : State := { ready with env := { ready.env with sink := { answers := [], after := false } } }

/-- A sink that accepts two writes and rejects the next (vector T9). -/
def twoThenReject : Sink := { answers := [true, true], after := false }

/-- Catalog `K` with an instance of object 2, which it does not know, and a new `(7, 5)` that is a metadata handle. -/
def catOdd : Catalog :=
  { catK with stored := ((2, 0), data [1]) :: catK.stored, fresh := [((7, 5), ⟨.metadata, [1], false⟩)] }

/-- The same with these transactions pending. -/
def pending (t : TxnTable) : State := { ready with txn := t }

/-- The same with these receive registers. -/
def receiving (r : Rx) : State := { ready with rx := r }

/-- The same with these arrivals to come. -/
def arriving (l : List Arrival) : State := { ready with inbox := l }

/-- The outcome is a next state with this property. -/
def answers (o : Host.Outcome State Fault Refusal) (p : State → Bool) : Bool :=
  match o with
  | .next t => p t
  | .fault _ => false
  | .refused _ => false

/-- The frames put out, accepted or not. -/
def frames (s : State) : List (List Byte) :=
  s.out.filterMap fun e => match e with
    | .tx f _ => some f
    | _ => none

/-- The counters in the order of the vectors. -/
def counters (s : State) : List Nat :=
  [s.stats.txBytes, s.stats.txObjects, s.stats.txErrors, s.stats.rxBytes, s.stats.rxObjects, s.stats.rxErrors]

/-! WellFormed: an ill-formed term for each check. -/

/-- R70, C2: 255 payload bytes fit a frame, 256 do not. -/
theorem test_wellFormed_obj : (Instr.obj 1 0 (List.replicate 255 0)).wellFormed = true ∧
    (Instr.obj 1 0 (List.replicate 256 0)).wellFormed = false := by decide +kernel

theorem test_wellFormed_objAck : (Instr.objAck 1 0 (List.replicate 255 0)).wellFormed = true ∧
    (Instr.objAck 1 0 (List.replicate 256 0)).wellFormed = false := by decide +kernel

/-! Decode: each constructor from bytes written out from the spec's encoding (R70, R80, R85 with the layout of log 4). -/

/-- Vector B8, the frame of object 0x80000000. -/
theorem test_decode_obj : decode [0x3C, 0x20, 0x0B, 0x00, 0x00, 0x00, 0x00, 0x80, 0x00, 0x00, 0x3C, 0x76] =
    .ok (.obj 0x80000000 0 [0x3C]) := by decide

/-- Vector B7. -/
theorem test_decode_objReq : decode [0x3C, 0x21, 0x0A, 0x00, 0xFF, 0xFF, 0xFF, 0xFF, 0xFF, 0xFF, 0xDD] =
    .ok (.objReq 0xFFFFFFFF 0xFFFF) := by decide

/-- Vector S5's frame in its acknowledged form (program G3). -/
theorem test_decode_objAck : decode [0x3C, 0x22, 0x0B, 0x00, 0x07, 0x00, 0x00, 0x00, 0x02, 0x00, 0xA2, 0x81] =
    .ok (.objAck 7 2 [0xA2]) := by decide

/-- `FRAME(ACK,7,2,[])` of part 2.2. -/
theorem test_decode_ack : decode [0x3C, 0x23, 0x0A, 0x00, 0x07, 0x00, 0x00, 0x00, 0x02, 0x00, 0x92] = .ok (.ack 7 2) := by
  decide

/-- `FRAME(NACK,7,5,[])` of program G4. -/
theorem test_decode_nack : decode [0x3C, 0x24, 0x0A, 0x00, 0x07, 0x00, 0x00, 0x00, 0x05, 0x00, 0x91] = .ok (.nack 7 5) := by
  decide

theorem test_decode_crc8Update : decode [0, 0xB4, 0x21] = .ok (.crc8Update 0xB4 0x21) := by decide
theorem test_decode_crc8UpdateMany : decode [1, 0xFF, 1, 2, 3] = .ok (.crc8UpdateMany 0xFF [1, 2, 3]) := by decide
theorem test_decode_buildFrame : decode [2, 0x21, 0x78, 0x56, 0x34, 0x12, 0x02, 0x01, 0xAA] =
    .ok (.buildFrame .objReq 0x12345678 0x0102 [0xAA]) := by decide
theorem test_decode_feedByte : decode [3, 0x3C] = .ok (.feedByte 0x3C) := by decide
theorem test_decode_sendObject : decode [4, 7, 0, 0, 0, 5, 0, 1] = .ok (.sendObject 7 5 true false) ∧
    decode [4, 7, 0, 0, 0, 5, 0, 2] = .ok (.sendObject 7 5 false true) := by decide
theorem test_decode_sendRequest : decode [5, 7, 0, 0, 0, 5, 0, 1] = .ok (.sendRequest 7 5 true) := by decide
theorem test_decode_cancelTransaction : decode [6, 7, 0, 0, 0, 0xFF, 0xFF] = .ok (.cancelTransaction 7 0xFFFF) := by decide
theorem test_decode_statsReset : decode [7] = .ok .statsReset := by decide
theorem test_decode_statsRead : decode [8] = .ok .statsRead := by decide

/-- R78: the byte after the right checksum is refused; R82, X2: length 9; R77: an `ACK` with a payload; R81: type 0x25. -/
theorem test_decode_refuses_frames :
    decode [0x3C, 0x21, 0x0A, 0x00, 0x01, 0x00, 0x00, 0x00, 0x00, 0x00, 0xBD] = .error .badChecksum ∧
    decode [0x3C, 0x21, 0x09, 0x00, 0x01, 0x00, 0x00, 0x00, 0x00, 0x00, 0xBC] = .error .illegalLength ∧
    decode [0x3C, 0x23, 0x0B, 0x00, 0x01, 0x00, 0x00, 0x00, 0x00, 0x00, 0x00, 0x00] = .error .unexpectedPayload ∧
    decode [0x3C, 0x25, 0x0A, 0x00, 0x01, 0x00, 0x00, 0x00, 0x00, 0x00, 0xBC] = .error (.illegalType 0x25) ∧
    decode [0x3C, 0x21, 0x0A] = .error .truncatedFrame := by decide

/-- U9: code 9; a missing operand; a set reserved bit. R86: a kind code 1 in the place of a type byte. -/
theorem test_decode_refuses_operations : decode [9] = .error (.unknownOperation 9) ∧ decode [3] = .error .operandCount ∧
    decode [4, 7, 0, 0, 0, 5, 0, 4] = .error .reservedOperand ∧ decode [] = .error .empty ∧
    decode [2, 1, 0x78, 0x56, 0x34, 0x12, 0x02, 0x01, 0xAA] = .error .reservedOperand := by decide

/-- The table's numbering: a frame row is matched on its type byte, the other operands are zero, but for the version bits of
the type byte that `BUILD_FRAME` carries. -/
theorem test_tableWord : decodeTableWord 8 0x22 = some (.objAck 0 0 []) ∧ decodeTableWord 8 6 = some (.cancelTransaction 0 0) ∧
    decodeTableWord 8 2 = some (.buildFrame .obj 0 0 []) ∧ decodeTableWord 8 0x25 = none := by decide

theorem test_withFetchWord :
    answers (step (State.reset.withFetchWord 8 0x24)) (fun t => t.out = [.outcome (.framedOk .nack 0 0 [] true)]) = true ∧
    answers (step (State.reset.withFetchWord 8 8)) (fun t => t.out = [.stats Stats.zero]) = true := by decide

/-! Single steps, from the vectors. -/

/-- Vectors Q11, Q13. -/
theorem test_crc8Update : answers (exec (.crc8Update 0xAB 0xCD) ready) (fun t => t.out = [.result (.crc 0x35)]) = true ∧
    answers (exec (.crc8Update 0xB4 0x21) ready) (fun t => t.out = [.result (.crc 0xE2)]) = true := by decide

/-- Vectors Q19, Q21. -/
theorem test_crc8UpdateMany :
    answers (exec (.crc8UpdateMany 0 [0xFF, 0xFF, 0xFF, 0xFF]) ready) (fun t => t.out = [.result (.crc 0xDE)]) = true ∧
    answers (exec (.crc8UpdateMany 0xFF [1, 2, 3]) ready) (fun t => t.out = [.result (.crc 0x63)]) = true := by decide

/-- Vectors B10, B9. -/
theorem test_buildFrame :
    answers (exec (.buildFrame .obj 7 0 [0xAA, 0xBB]) ready) (fun t =>
      t.out = [.result (.frame [0x3C, 0x20, 0x0C, 0x00, 0x07, 0, 0, 0, 0, 0, 0xAA, 0xBB, 0x03])]) = true ∧
    answers (exec (.buildFrame .obj 1 0 (List.replicate 256 0)) ready) (fun t =>
      t.out = [.result (.fail .payloadTooLarge)]) = true := by decide +kernel

/-- The registers after the first ten bytes of S1. -/
def s1Registers : Rx :=
  { Rx.reset with
    state := .checksum, crc := 0xBC, type := 0x21, size := 10, objid := 1, instid := 0, pktlen := 10
    objMeta := some ⟨0, true⟩ }

/-- Vector S1, its last byte: the frame is dispatched and answered. -/
theorem test_feedByte_completes : answers (exec (.feedByte 0xBC) (receiving s1Registers)) (fun t =>
    t.rx.state = .complete ∧ t.rx.pktlen = 11 ∧ counters t = [11, 1, 0, 1, 1, 0] ∧
    t.out = [.tx [0x3C, 0x20, 0x0A, 0, 1, 0, 0, 0, 0, 0, 0xC5] true, .outcome (.framedOk .objReq 1 0 [] true)]) = true := by
  decide

/-- Vector S3: one flipped bit of the checksum. -/
theorem test_feedByte_badChecksum : answers (exec (.feedByte 0xBD) (receiving s1Registers)) (fun t =>
    t.rx.state = .error ∧ counters t = [0, 0, 0, 1, 0, 1] ∧
    t.out = [.raised .badChecksum, .outcome .discarded]) = true := by decide

/-- Vector S6: an `OBJ` closes the request once, with one notification. -/
theorem test_obj_closes : answers (exec (.obj 7 0 [0x55]) (pending [⟨7, 0, .obj⟩])) (fun t =>
    t.txn = [] ∧ t.env.catalog.lookupInstance 7 0 = some (data [0x55]) ∧
    t.out = [.unpack 7 0 [0x55], .success 7 0, .outcome (.framedOk .obj 7 0 [0x55] true)]) = true := by decide

/-- Vector X13: an `OBJ` for an instance that does not exist creates it. -/
theorem test_obj_creates : answers (exec (.obj 9 0 []) ready) (fun t =>
    t.env.catalog.lookupInstance 9 0 = some (data []) ∧ counters t = [0, 0, 0, 0, 1, 0]) = true := by decide

/-- R174: the three instances of object 7 in descending order (vector S5's frames). -/
theorem test_objReq_all : answers (exec (.objReq 7 0xFFFF) ready) (fun t => frames t =
    [[0x3C, 0x20, 0x0B, 0, 7, 0, 0, 0, 2, 0, 0xA2, 0x51], [0x3C, 0x20, 0x0B, 0, 7, 0, 0, 0, 1, 0, 0xA1, 0xE5],
      [0x3C, 0x20, 0x0B, 0, 7, 0, 0, 0, 0, 0, 0xA0, 0x89]] ∧ counters t = [36, 3, 0, 0, 1, 0]) = true := by decide

/-- R174: no instance 5 of object 7, so `FRAME(NACK,7,5,[])`, as program G4 prints it, and status 0. -/
theorem test_objReq_nack : answers (exec (.objReq 7 5) ready) (fun t =>
    frames t = [[0x3C, 0x24, 0x0A, 0, 7, 0, 0, 0, 5, 0, 0x91]] ∧ counters t = [11, 1, 0, 0, 0, 1]) = true := by decide

/-- Vector P14: instance 1 of object 7 does not pack, so the all-instances reply stops after instance 2 and a `NACK` follows,
with status 1. -/
theorem test_objReq_packFails :
    answers (exec (.objReq 7 0xFFFF) { ready with env := { ready.env with catalog := { catK with
      stored := [((7, 0), data [0xA0]), ((7, 1), ⟨.dataInstance, [0xA1], false⟩), ((7, 2), data [0xA2])] } } })
      (fun t => frames t = [[0x3C, 0x20, 0x0B, 0, 7, 0, 0, 0, 2, 0, 0xA2, 0x51],
        [0x3C, 0x24, 0x0A, 0, 7, 0, 0, 0, 0xFF, 0xFF, 0xF4]] ∧ counters t = [23, 2, 1, 0, 1, 0]) = true := by decide

/-- Program G2: the update and its `ACK`. -/
theorem test_objAck : answers (exec (.objAck 8 0 [0xDE, 0xAD]) ready) (fun t =>
    t.env.catalog.lookupInstance 8 0 = some (data [0xDE, 0xAD]) ∧
    frames t = [[0x3C, 0x23, 0x0A, 0, 8, 0, 0, 0, 0, 0, 0x28]] ∧ counters t = [11, 1, 0, 0, 1, 0]) = true := by decide

/-- R173, D18: a metadata handle is not updated, and the `ACK` goes out all the same. -/
theorem test_objAck_castError : answers (exec (.objAck 10 0 [1]) ready) (fun t =>
    (frames t).length = 1 ∧ counters t = [11, 1, 0, 0, 0, 1] ∧ t.env.catalog = catK) = true := by decide +kernel

/-- Program G3: instance 2 leaves an all-instances transaction open, instance 0 closes it. -/
theorem test_ack : answers (exec (.ack 7 2) (pending [⟨7, 0xFFFF, .ack⟩])) (fun t => t.txn = [⟨7, 0xFFFF, .ack⟩]) = true ∧
    answers (exec (.ack 7 0) (pending [⟨7, 0xFFFF, .ack⟩])) (fun t => t.txn = [] ∧
      t.out = [.success 7 0xFFFF, .outcome (.framedOk .ack 7 0 [] true)]) = true := by decide

/-- R175: the sentinel is illegal on an `ACK`. -/
theorem test_ack_sentinel : answers (exec (.ack 7 0xFFFF) (pending [⟨7, 0xFFFF, .ack⟩])) (fun t =>
    t.txn = [⟨7, 0xFFFF, .ack⟩] ∧ counters t = [0, 0, 0, 0, 0, 1]) = true := by decide

/-- R176, its worked example. -/
theorem test_nack : answers (exec (.nack 1 0xFFFF) (pending [⟨1, 0xFFFF, .obj⟩])) (fun t => t.txn = [] ∧
    t.out = [.success 1 0xFFFF, .outcome (.framedOk .nack 1 0xFFFF [] true)]) = true := by decide

/-- R192, its worked example. -/
theorem test_sendObject_all : answers (exec (.sendObject 7 0 true true) ready) (fun t =>
    (frames t).map (fun f => f.getD 8 0) = [2, 1, 0] ∧ t.txn = [⟨7, 0xFFFF, .ack⟩] ∧
    counters t = [36, 3, 0, 0, 0, 0]) = true := by decide

/-- Vector T9: the sink takes two frames and rejects the third; nothing is opened. -/
theorem test_sendObject_rejectedInTheMiddle :
    answers (exec (.sendObject 7 0 true true) { ready with env := { catalog := catK, sink := twoThenReject } }) (fun t =>
      (frames t).map (fun f => f.getD 8 0) = [2, 1, 0] ∧ t.txn = [] ∧ counters t = [24, 2, 1, 0, 0, 0]) = true := by decide

/-- Vector T13 with object 10: a metadata handle. -/
theorem test_sendObject_castError : answers (exec (.sendObject 10 0 true false) ready) (fun t =>
    t.out = [.raised .castError, .result (.fail .castError)] ∧ t.txn = [] ∧ counters t = [0, 0, 1, 0, 0, 0]) = true := by
  decide

/-- Vector S7. -/
theorem test_sendRequest : answers (exec (.sendRequest 8 0 true) ready) (fun t =>
    frames t = [[0x3C, 0x21, 0x0A, 0, 8, 0, 0, 0, 0, 0, 0xDA]] ∧ t.txn = [⟨8, 0, .obj⟩]) = true := by decide

/-- Vector M15, its second operation: a full table. -/
theorem test_sendRequest_full :
    answers (exec (.sendRequest 7 1 false)
      { pending [⟨7, 0, .obj⟩] with params := { txnDepth := .finite 0, statW := .unbounded } }) (fun t =>
      t.out = [.result (.fail .tableFull)] ∧ counters t = [0, 0, 0, 0, 0, 0]) = true := by decide

/-- Vectors M12, M14. -/
theorem test_cancel : answers (exec (.cancelTransaction 7 2) (pending [⟨7, 0xFFFF, .ack⟩])) (fun t => t.txn = [] ∧
      t.out = [.failure 7 0xFFFF, .result (.found true)]) = true ∧
    answers (exec (.cancelTransaction 8 0) (pending [⟨7, 0xFFFF, .ack⟩])) (fun t => t.txn = [⟨7, 0xFFFF, .ack⟩] ∧
      t.out = [.result (.found false)]) = true := by decide

/-- Vector Z2. -/
theorem test_statsReset : answers (exec .statsReset { ready with stats := ⟨36, 3, 0, 48, 3, 1⟩ }) (fun t =>
    t = ready) = true := by decide +kernel

/-- Vector Z2. -/
theorem test_statsRead : answers (exec .statsRead { ready with stats := ⟨36, 3, 0, 48, 3, 1⟩ }) (fun t =>
    t.out = [.stats ⟨36, 3, 0, 48, 3, 1⟩]) = true := by decide

/-- Vectors Z3, Z4: saturation at 8 bits. -/
theorem test_satInc : satInc (.finite 7) 250 12 = 255 ∧ satInc (.finite 7) 255 1 = 255 ∧ satInc .unbounded 250 12 = 262 := by
  decide

/-! The buffer and the table keep their canonical form. -/

theorem test_memory : Memory.write 3 0xAA (Memory.write 1 0xBB []) = [(1, 0xBB), (3, 0xAA)] ∧
    Memory.write 1 0 [(1, 0xBB), (3, 0xAA)] = [(3, 0xAA)] ∧ Memory.read [(1, 0xBB), (3, 0xAA)] 2 = 0 := by decide

/-- Vectors M4, M5, M6. -/
theorem test_table : TxnTable.find [⟨7, 0, .ack⟩, ⟨7, 0xFFFF, .ack⟩] 7 0 = some (7, 0) ∧
    TxnTable.insert 7 0 .obj [⟨7, 0, .ack⟩] = [⟨7, 0, .obj⟩] ∧
    TxnTable.insert 7 3 .obj [⟨7, 0xFFFF, .obj⟩] = [⟨7, 3, .obj⟩, ⟨7, 0xFFFF, .obj⟩] := by decide

/-! Witnesses: each meets the hypotheses of the statement it is named after. -/

theorem test_witness_DecodeOfEncode : (Instr.obj 8 0 [1, 2]).wellFormed = true := by decide

theorem test_witness_EncodeOfDecode : decode [6, 7, 0, 0, 0, 0xFF, 0xFF] = .ok (.cancelTransaction 7 0xFFFF) := by decide

theorem test_witness_IllegalCodesRejected : (0x25 : Byte) ∉ ([0x20, 0x21, 0x22, 0x23, 0x24] : List Byte) ∧
    9 ≤ (9 : Byte).toNat ∧ (9 : Byte) ≠ 0x3C ∧ 9 ≤ (0xFF : Byte).toNat ∧ (0xFF : Byte) ≠ 0x3C := by decide

theorem test_witness_CrcResidueAndDetection : (0xBC : Byte) ≠ 0x3C := by decide

theorem test_witness_BuildFrameResult : (List.replicate 255 (0 : Byte)).length ≤ 255 ∧
    256 ≤ (List.replicate 256 (0 : Byte)).length := by decide +kernel

theorem test_witness_FrameLayout : (List.replicate 255 (0 : Byte)).length ≤ 255 := by decide +kernel

theorem test_witness_FeedByteWhileSearching : ready.rx.state = .sync ∧
    (receiving { Rx.reset with state := .complete }).rx.state = .complete ∧
    (receiving { Rx.reset with state := .error }).rx.state = .error ∧ (0x3D : Byte) ≠ 0x3C := by decide

theorem test_witness_FeedByteInType : (receiving { Rx.reset with state := .type }).rx.state = .type ∧
    (0x24 : Byte) ∈ ([0x20, 0x21, 0x22, 0x23, 0x24] : List Byte) ∧
    (0x25 : Byte) ∉ ([0x20, 0x21, 0x22, 0x23, 0x24] : List Byte) := by decide

/-- The second byte of a length field whose first byte was `lo`. -/
def inSize (lo : Half) : State := receiving { Rx.reset with state := .size, size := lo, count := 1 }

/-- At the bounds 10, 266 and just outside them. -/
theorem test_witness_FeedByteInSize : (receiving { Rx.reset with state := .size }).rx.count = 0 ∧
    (inSize 10).rx.state = .size ∧ (inSize 10).rx.count ≠ 0 ∧
    ((inSize 10).rx.size ||| ((0 : Byte).setWidth 16 <<< 8)).toNat = 10 ∧
    ((inSize 10).rx.size ||| ((1 : Byte).setWidth 16 <<< 8)).toNat = 266 ∧
    ((inSize 9).rx.size ||| ((0 : Byte).setWidth 16 <<< 8)).toNat < 10 ∧
    266 < ((inSize 11).rx.size ||| ((1 : Byte).setWidth 16 <<< 8)).toNat := by decide

theorem test_witness_FeedByteInObjectId :
    (receiving { Rx.reset with state := .objectId }).rx.state = .objectId ∧
    (receiving { Rx.reset with state := .objectId }).rx.count = 0 ∧
    (receiving { Rx.reset with state := .objectId, count := 1 }).rx.count = 1 ∧
    (receiving { Rx.reset with state := .objectId, count := 2 }).rx.count = 2 ∧
    (receiving { Rx.reset with state := .objectId, count := 3 }).rx.count = 3 := by decide

/-- The second instance-id byte of a frame of type `ty` with length field `len` for object `o`. -/
def inInstance (ty : Byte) (len : Half) (o : ObjId) : State :=
  receiving { Rx.reset with state := .instanceId, type := ty, size := len, objid := o, count := 1 }

/-- Each clause: unknown object; 256 bytes; a wrong length for 255 bytes; 255 and 1 bytes; none. -/
theorem test_witness_FeedByteInInstanceId :
    (receiving { Rx.reset with state := .instanceId }).rx.count = 0 ∧
    (inInstance 0x20 12 2).rx.state = .instanceId ∧ (inInstance 0x20 12 2).rx.count ≠ 0 ∧
    catK.lookup 2 = none ∧ catK.lookup 0x100 = some ⟨256, true⟩ ∧
    catK.lookup 0x101 = some ⟨255, true⟩ ∧ 10 + 255 ≠ (inInstance 0x20 12 0x101).rx.size.toNat ∧
    10 + 255 = (inInstance 0x20 265 0x101).rx.size.toNat ∧
    catK.lookup 7 = some ⟨1, false⟩ ∧ 10 + 1 = (inInstance 0x20 11 7).rx.size.toNat ∧
    (inInstance 0x21 10 7).rx.type ∈ ([0x21, 0x23, 0x24] : List Byte) ∧
    10 = (inInstance 0x21 10 7).rx.size.toNat := by decide

/-- Collecting byte `k`, of 255. -/
def inData (k : BitVec 8) : State :=
  receiving { Rx.reset with state := .data, type := 0x20, count := k, expected := 255, buf := [(0, 0xAA)] }

theorem test_witness_FeedByteInData : (inData 254).rx.state = .data ∧ (inData 254).rx.count ≠ 255 ∧
    (inData 254).rx.buf.wf = true ∧ 0 ≠ (inData 254).rx.count.toNat ∧
    (inData 255).rx.state = .data ∧ (inData 255).rx.count = 255 := by decide

theorem test_witness_ChecksumRejects : (receiving s1Registers).rx.state = .checksum ∧
    (0xBD : Byte) ≠ (receiving s1Registers).rx.crc ∧
    ((receiving { s1Registers with size := 11 }).rx.pktlen + 1).toNat ≠
      (receiving { s1Registers with size := 11 }).rx.size.toNat + 1 := by decide

/-- A control frame, a frame with a payload, and a type register without a frame type. -/
theorem test_witness_CompletedFrameIsDispatched :
    (receiving s1Registers).rx.state = .checksum ∧
    ((receiving s1Registers).rx.pktlen + 1).toNat = (receiving s1Registers).rx.size.toNat + 1 ∧
    FrameType.ofByte (receiving s1Registers).rx.type = some .objReq ∧ (receiving s1Registers).rx.expected = 0 ∧
    (let r : Rx := { s1Registers with type := 0x20, size := 12, pktlen := 12, expected := 2, count := 2 }
     (r.pktlen + 1).toNat = r.size.toNat + 1 ∧ FrameType.ofByte r.type = some .obj ∧
       FrameType.obj.carriesPayload = true) ∧
    FrameType.ofByte ({ s1Registers with type := 0x25 } : Rx).type = none := by decide

/-- A byte of each outcome. -/
theorem test_witness_FeedByteCounts : answers (exec (.feedByte 0x3C) ready) (fun t => t.out = [.outcome .awaitingMore]) = true ∧
    answers (exec (.feedByte 0x00) ready) (fun t => t.out = [.raised .badSync, .outcome .discarded]) = true ∧
    answers (exec (.feedByte 0xBC) (receiving s1Registers)) (fun t => t.stats.rxObjects = 1) = true ∧
    answers (exec (.feedByte 0xBC) (receiving { s1Registers with objid := 9 })) (fun t => t.stats.rxErrors = 1) = true := by
  decide

/-- A frame with a payload, one of 255 bytes, and one without; and a wrong checksum byte. -/
theorem test_witness_BuiltFrameIsReceived : ready.rx.state = .sync ∧ ready.rx.buf.wf = true ∧
    catK.expects .obj 8 [1, 2].length ∧ catK.expects .objAck 0x101 255 ∧ catK.expects .nack 7 ([] : List Byte).length :=
  ⟨rfl, rfl, ⟨⟨2, true⟩, rfl, rfl⟩, ⟨⟨255, true⟩, rfl, rfl⟩, ⟨⟨1, false⟩, rfl, rfl⟩⟩

theorem test_witness_WrongChecksumIsDiscarded : ready.rx.state = .sync ∧ ready.rx.buf.wf = true ∧
    catK.expects .objReq 1 ([] : List Byte).length ∧ (frameBytes .objReq 1 0 []).getLast? ≠ some 0xBD :=
  ⟨rfl, rfl, ⟨⟨0, true⟩, rfl, rfl⟩, by decide⟩

theorem test_witness_TxnFindExactFirst : (TxnTable.get [⟨7, 0, .ack⟩, ⟨7, 0xFFFF, .ack⟩] 7 0).isSome = true ∧
    TxnTable.get [⟨7, 0xFFFF, .ack⟩] 7 2 = none ∧ (TxnTable.get [⟨7, 0xFFFF, .ack⟩] 7 0xFFFF).isSome = true ∧
    TxnTable.get [⟨7, 0xFFFF, .ack⟩] 8 2 = none ∧ TxnTable.get [⟨7, 0xFFFF, .ack⟩] 8 0xFFFF = none ∧
    TxnTable.find [⟨7, 0xFFFF, .ack⟩] 7 0xFFFF = some (7, 0xFFFF) := by decide

theorem test_witness_TxnOpenOverwrites : (pending [⟨7, 0, .ack⟩]).txn.wf = true ∧
    ((7, 1) : TxnKey) ≠ (7, 0) := by decide

theorem test_witness_TxnCloseRemoves : TxnTable.wf [⟨7, 0, .ack⟩, ⟨7, 2, .obj⟩] = true ∧
    (TxnTable.get [⟨7, 0, .ack⟩, ⟨7, 2, .obj⟩] 7 2).isSome = true ∧ ((7, 0) : TxnKey) ≠ (7, 2) ∧
    TxnTable.get [⟨7, 0, .ack⟩, ⟨7, 2, .obj⟩] 8 0 = none := by decide

theorem test_witness_FullTableRefusesSends : normalize catK 7 1 false = some (1, false) ∧
    TxnTable.canOpen (.finite 0) [⟨7, 0, .obj⟩] 7 1 = false ∧ normalize catK 7 1 true = some (0xFFFF, true) ∧
    TxnTable.canOpen (.finite 0) [⟨7, 0, .obj⟩] 7 0xFFFF = false := by decide

theorem test_witness_CancelTransactionResult : (pending [⟨7, 0xFFFF, .ack⟩]).txn.find 7 2 = some (7, 0xFFFF) ∧
    (pending [⟨7, 0xFFFF, .ack⟩]).txn.find 8 0 = none := by decide

/-- Either alternative: no exact entry, no all-instances entry. -/
theorem test_witness_LateReplyAfterCancelIgnored : (pending [⟨7, 0xFFFF, .ack⟩]).txn.wf = true ∧ (2 : InstId) ≠ 0xFFFF ∧
    (pending [⟨7, 0xFFFF, .ack⟩]).txn.get 7 2 = none ∧
    answers (exec (.cancelTransaction 7 2) (pending [⟨7, 0xFFFF, .ack⟩])) (fun t => t.txn = []) = true ∧
    (pending [⟨7, 2, .ack⟩]).txn.get 7 0xFFFF = none ∧
    answers (exec (.cancelTransaction 7 2) (pending [⟨7, 2, .ack⟩])) (fun t => t.txn = []) = true := by decide

/-- Nothing pending, and a request that instance 2 does not close; closed by the exact instance, and by instance 0; an
acknowledgement that is waited for. -/
theorem test_witness_ObjUpdatesInstance : (2 : InstId) ≠ 0xFFFF ∧ catK.lookupInstance 7 2 = some (data [0xA2]) ∧
    (data [0xA2]).kind = .dataInstance ∧ ready.txn.find 7 2 = none ∧
    (pending [⟨7, 0xFFFF, .obj⟩]).txn.find 7 2 = some (7, 0xFFFF) ∧ (2 : InstId) ≠ 0 ∧
    (pending [⟨7, 2, .ack⟩]).txn.find 7 2 = some (7, 2) ∧ (pending [⟨7, 2, .ack⟩]).txn.get 7 2 = some .ack ∧
    (pending [⟨7, 2, .obj⟩]).txn.find 7 2 = some (7, 2) ∧ (pending [⟨7, 2, .obj⟩]).txn.get 7 2 = some .obj ∧
    catK.lookupInstance 7 0 = some (data [0xA0]) ∧ (pending [⟨7, 0xFFFF, .obj⟩]).txn.find 7 0 = some (7, 0xFFFF) ∧
    (pending [⟨7, 0xFFFF, .obj⟩]).txn.get 7 0xFFFF = some .obj ∧ ((7, 1) : TxnKey) ≠ (7, 2) := by decide

/-- An instance the environment answers nothing special for, without and with a request it closes (T7 and its reply); one it
answers with a metadata handle. -/
theorem test_witness_ObjCreatesInstance : (5 : InstId) ≠ 0xFFFF ∧ catK.lookupInstance 7 5 = none ∧
    catK.freshInstance (7, 5) = data [] ∧ (data []).kind = .dataInstance ∧ ready.txn.find 7 5 = none ∧
    (pending [⟨7, 5, .obj⟩]).txn.find 7 5 = some (7, 5) ∧ (pending [⟨7, 5, .obj⟩]).txn.get 7 5 = some .obj ∧
    catOdd.lookupInstance 7 5 = none ∧ (catOdd.freshInstance (7, 5)).kind = .metadata ∧
    ((7, 1) : TxnKey) ≠ (7, 5) := by decide

theorem test_witness_IllegalFramesOnlyCount : (0 : InstId) ≠ 0xFFFF ∧
    catK.lookupInstance 10 0 = some ⟨.metadata, [], true⟩ := by decide

theorem test_witness_ObjAckUpdatesAndAcknowledges : (0 : InstId) ≠ 0xFFFF ∧
    catK.lookupInstance 8 0 = some (data [0, 0]) ∧ (data [0, 0]).kind = .dataInstance ∧
    ready.env.sink.answer = true ∧ rejecting.env.sink.answer = false := by decide

/-- Each of the four updates: found or created, a `DataInstance` or not. -/
theorem test_witness_ObjAckAlwaysAcknowledges : (0xFFFE : InstId) ≠ 0xFFFF ∧ (0 : InstId) ≠ 0xFFFF ∧
    catK.lookupInstance 8 0 = some (data [0, 0]) ∧ catK.lookupInstance 10 0 = some ⟨.metadata, [], true⟩ ∧
    catK.lookupInstance 7 0xFFFE = none ∧ (catK.freshInstance (7, 0xFFFE)).kind = .dataInstance ∧
    catOdd.lookupInstance 7 5 = none ∧ (catOdd.freshInstance (7, 5)).kind = .metadata ∧
    ((7, 1) : TxnKey) ≠ (7, 0xFFFE) := by decide

/-- Each clause: an object the catalog does not know; no pack; 256 bytes; one instance, accepted or rejected (P13); the
sentinel on a single-instance object (P12). -/
theorem test_witness_ObjReqSendsInstance :
    (0 : InstId) = (if (0 : InstId) = 0xFFFF then 0 else 0) ∧ catOdd.lookupInstance 2 0 = some (data [1]) ∧
    catOdd.lookup 2 = none ∧ catK.lookup 10 = some ⟨1, false⟩ ∧ (1 : InstId) ≠ 0xFFFF ∧
    catK.lookupInstance 10 1 = some ⟨.dataInstance, [], false⟩ ∧
    catK.lookupInstance 10 2 = some (data (List.replicate 256 0)) ∧ 256 ≤ (List.replicate 256 (0 : Byte)).length ∧
    catK.lookupInstance 10 3 = some (data [0xB3]) ∧ (data [0xB3]).packs = true ∧ ([0xB3] : List Byte).length ≤ 255 ∧
    rejecting.env.sink.answer = false ∧ ready.env.sink.answer = true ∧
    (0 : InstId) = (if (0xFFFF : InstId) = 0xFFFF then 0 else 0xFFFF) ∧ catK.lookup 8 = some ⟨2, true⟩ ∧
    catK.lookupInstance 8 0 = some (data [0, 0]) ∧ (data [0, 0]).packs = true := by decide +kernel

/-- No instance; a metadata handle; the sentinel, which means instance 0. -/
theorem test_witness_ObjReqUnresolvedNacks : catK.lookupInstance 9 0 = none ∧
    catK.lookupInstance 10 0 = some ⟨.metadata, [], true⟩ ∧
    (0 : InstId) = (if (0xFFFF : InstId) = 0xFFFF then 0 else 0xFFFF) ∧ (0 : InstId) = (if (0 : InstId) = 0xFFFF then 0 else 0) ∧
    ready.env.sink.answer = true ∧ rejecting.env.sink.answer = false := by decide

/-- What the instances of object 7 hold. -/
def payload7 (j : InstId) : List Byte := if j = 2 then [0xA2] else if j = 1 then [0xA1] else [0xA0]

theorem test_witness_sendable7 : ∀ j ∈ catK.instanceIds 7, catK.sendable 7 j (payload7 j) := by
  have h : catK.instanceIds 7 = [2, 1, 0] := by decide
  rw [h]
  intro j hj
  simp only [List.mem_cons, List.not_mem_nil, or_false] at hj
  rcases hj with rfl | rfl | rfl
  · exact ⟨data [0xA2], rfl, rfl, rfl, rfl, by decide⟩
  · exact ⟨data [0xA1], rfl, rfl, rfl, rfl, by decide⟩
  · exact ⟨data [0xA0], rfl, rfl, rfl, rfl, by decide⟩

/-- Every instance sent; the third one rejected by the sink (as in vector T9). -/
theorem test_witness_ObjReqAllInstances : catK.lookup 7 = some ⟨1, false⟩ ∧
    catK.lookupInstance 7 0 = some (data [0xA0]) ∧ (data [0xA0]).kind = .dataInstance ∧
    (∀ j ∈ catK.instanceIds 7, catK.sendable 7 j (payload7 j)) ∧
    ready.env.sink.acceptsNext (catK.instanceIds 7).length = true ∧ catK.instanceIds 7 = [2, 1] ++ 0 :: [] ∧
    (∀ j ∈ ([2, 1] : List InstId), catK.sendable 7 j (payload7 j)) ∧ twoThenReject.acceptsNext 2 = true ∧
    Env.failsAt ⟨catK, twoThenReject⟩ .obj 7 2 0 .transmitFailure [.tx (frameBytes .obj 7 0 [0xA0]) false] :=
  ⟨rfl, rfl, rfl, test_witness_sendable7, by decide, by decide,
    fun j hj => test_witness_sendable7 j (by rw [show catK.instanceIds 7 = [2, 1] ++ [0] by decide]; exact List.mem_append_left _ hj),
    rfl, .inr ⟨[0xA0], ⟨data [0xA0], rfl, rfl, rfl, rfl, by decide⟩, rfl, rfl, rfl⟩⟩

/-- Closed by the exact instance; by instance 0; left alone for its kind, and for its instance. -/
theorem test_witness_AckClosesTransaction : (2 : InstId) ≠ 0xFFFF ∧
    (pending [⟨7, 2, .ack⟩]).txn.find 7 2 = some (7, 2) ∧ (pending [⟨7, 2, .ack⟩]).txn.get 7 2 = some .ack ∧
    (pending [⟨7, 0xFFFF, .ack⟩]).txn.find 7 0 = some (7, 0xFFFF) ∧
    (pending [⟨7, 0xFFFF, .ack⟩]).txn.get 7 0xFFFF = some .ack ∧
    (pending [⟨7, 2, .obj⟩]).txn.find 7 2 = some (7, 2) ∧ (pending [⟨7, 2, .obj⟩]).txn.get 7 2 = some .obj ∧
    (pending [⟨7, 0xFFFF, .ack⟩]).txn.find 7 2 = some (7, 0xFFFF) ∧ (2 : InstId) ≠ 0 := by decide

theorem test_witness_NackClosesAnyTransaction : (pending [⟨7, 0xFFFF, .ack⟩]).txn.find 7 2 = some (7, 0xFFFF) ∧
    ready.txn.find 7 2 = none := by decide

/-- With and without acknowledgement. -/
theorem test_witness_SendObjectSingle : catK.lookup 7 = some ⟨1, false⟩ ∧ catK.sendable 7 2 [0xA2] ∧
    ready.env.sink.answer = true ∧ ready.txn.canOpen ready.params.txnDepth 7 2 = true :=
  ⟨rfl, ⟨data [0xA2], rfl, rfl, rfl, rfl, by decide⟩, rfl, rfl⟩

/-- Each failure: unknown object, no instance, metadata, no pack, 256 bytes, rejected. -/
theorem test_witness_SendObjectFailures : catK.lookup 2 = none ∧ catK.lookup 10 = some ⟨1, false⟩ ∧
    ready.txn.canOpen ready.params.txnDepth 10 0 = true ∧ catK.lookupInstance 10 9 = none ∧
    catK.lookupInstance 10 0 = some ⟨.metadata, [], true⟩ ∧ catK.lookupInstance 10 1 = some ⟨.dataInstance, [], false⟩ ∧
    catK.lookupInstance 10 2 = some (data (List.replicate 256 0)) ∧ 256 ≤ (List.replicate 256 (0 : Byte)).length ∧
    catK.sendable 10 3 [0xB3] ∧ rejecting.env.sink.answer = false :=
  ⟨rfl, rfl, rfl, rfl, rfl, rfl, rfl, by decide +kernel, ⟨data [0xB3], rfl, rfl, rfl, rfl, by decide +kernel⟩, rfl⟩

theorem test_witness_InstanceIdsDescend : catK.instanceIds 7 = [2, 1, 0] := by decide

theorem test_witness_SendAllInstances : catK.lookup 7 = some ⟨1, false⟩ ∧
    (∀ j ∈ catK.instanceIds 7, catK.sendable 7 j (payload7 j)) ∧
    ready.env.sink.acceptsNext (catK.instanceIds 7).length = true ∧
    ready.txn.canOpen ready.params.txnDepth 7 0xFFFF = true :=
  ⟨rfl, test_witness_sendable7, by decide, rfl⟩

/-- Object 10: instance 3 is sent, instance 2 packs to 256 bytes, and so the send stops. The sink that accepts two writes
and rejects the next stops an all-instances send of object 7 at its third instance (vector T9). -/
theorem test_witness_SendAllStopsAtFirstFailure : catK.lookup 10 = some ⟨1, false⟩ ∧
    catK.instanceIds 10 = [3] ++ 2 :: [1, 0] ∧ (∀ j ∈ ([3] : List InstId), catK.sendable 10 j [0xB3]) ∧
    ready.env.sink.acceptsNext ([3] : List InstId).length = true ∧
    ready.txn.canOpen ready.params.txnDepth 10 0xFFFF = true ∧
    ready.env.failsAt .objAck 10 1 2 .payloadTooLarge [] ∧
    catK.instanceIds 7 = [2, 1] ++ 0 :: [] ∧ twoThenReject.acceptsNext 2 = true ∧
    Env.failsAt ⟨catK, twoThenReject⟩ .objAck 7 2 0 .transmitFailure [.tx (frameBytes .objAck 7 0 [0xA0]) false] := by
  refine ⟨rfl, by decide +kernel, ?_, rfl, rfl,
    .inl ⟨data (List.replicate 256 0), rfl, rfl, .inr (.inr ⟨rfl, rfl, by decide +kernel, rfl⟩)⟩, by decide, rfl,
    .inr ⟨[0xA0], ⟨data [0xA0], rfl, rfl, rfl, rfl, by decide⟩, rfl, rfl, rfl⟩⟩
  intro j hj
  simp only [List.mem_cons, List.not_mem_nil, or_false] at hj
  subst hj
  exact ⟨data [0xB3], rfl, rfl, rfl, rfl, by decide +kernel⟩

/-- The other two failures, each of the only instance of object 10. -/
theorem test_witness_SendAllStopsAtFirstFailure_kinds :
    Catalog.instanceIds { catK with stored := [((10, 1), ⟨.metadata, [], true⟩)] } 10 = [] ++ 1 :: [] ∧
    Catalog.lookupInstance { catK with stored := [((10, 1), ⟨.metadata, [], true⟩)] } 10 1 = some ⟨.metadata, [], true⟩ ∧
    Catalog.instanceIds { catK with stored := [((10, 1), ⟨.dataInstance, [], false⟩)] } 10 = [] ++ 1 :: [] ∧
    Catalog.lookupInstance { catK with stored := [((10, 1), ⟨.dataInstance, [], false⟩)] } 10 1 =
      some ⟨.dataInstance, [], false⟩ := by decide

theorem test_witness_SendRequestResult : catK.lookup 7 = some ⟨1, false⟩ ∧ catK.lookup 8 = some ⟨2, true⟩ ∧
    ready.txn.canOpen ready.params.txnDepth 7 0xFFFF = true ∧ ready.txn.canOpen ready.params.txnDepth 8 0 = true ∧
    ready.env.sink.answer = true ∧ rejecting.txn.canOpen rejecting.params.txnDepth 7 0 = true ∧
    rejecting.env.sink.answer = false ∧ catK.lookup 2 = none := by decide

theorem test_witness_SingleInstanceNormalized : catK.lookup 8 = some ⟨2, true⟩ ∧ catK.lookup 7 = some ⟨1, false⟩ ∧
    catK.lookup 2 = none := by decide

/-- The largest count of 8 bits. -/
theorem test_witness_StatsResetResult : withinWidth (.finite 7) 255 = true ∧ withinWidth (.finite 7) 256 = false := by decide

theorem test_witness_CountersNeverDecrease :
    ({ ready with params := { txnDepth := .unbounded, statW := .finite 7 } } : State).stats.within (.finite 7) = true ∧
    answers (exec (.sendRequest 7 0 false) { ready with params := { txnDepth := .unbounded, statW := .finite 7 } })
      (fun t => t.stats.txBytes = 11) = true ∧ Instr.sendRequest 7 0 false ≠ .statsReset := by decide

theorem test_witness_CountersAreNeverRead : Instr.feedByte 0x3C ≠ .statsRead ∧
    answers (exec (.feedByte 0x3C) ready) (fun _ => true) = true := by decide

/-- Reset satisfies the invariant, and so do the registers in the middle of a frame. -/
theorem test_witness_EveryInstructionCompletes : ready.inv = true ∧ (receiving s1Registers).inv = true := by decide

theorem test_witness_StepRunsDecodedOperation : (arriving [.op [3, 0x3C], .reset]).inbox = .op [3, 0x3C] :: [.reset] ∧
    decode [3, 0x3C] = .ok (.feedByte 0x3C) ∧ isFrame (.feedByte 0x3C) = false := by decide

theorem test_witness_StepOnOtherArrivals : ready.inbox = [] ∧ (arriving [.reset]).inbox = .reset :: [] ∧
    (arriving [.environment rejecting.env]).inbox = .environment rejecting.env :: [] ∧
    (arriving [.op [9]]).inbox = .op [9] :: [] ∧ decode [9] = .error (.unknownOperation 9) ∧
    decode [0x3C, 0x23, 0x0A, 0x00, 0x07, 0x00, 0x00, 0x00, 0x02, 0x00, 0x92] = .ok (.ack 7 2) ∧
    isFrame (.ack 7 2) = true := by decide +kernel

theorem test_witness_TableWordRunsNext : decodeTableWord 8 0x20 = some (.obj 0 0 []) ∧ isFrame (.obj 0 0 []) = true ∧
    decodeTableWord 8 0 = some (.crc8Update 0 0) ∧ isFrame (.crc8Update 0 0) = false := by decide

theorem test_witness_StepKeepsInvariant :
    ({ receiving s1Registers with inbox := [.op [3, 0xBC]] } : State).inv = true ∧
    answers (step { receiving s1Registers with inbox := [.op [3, 0xBC]] }) (fun t => t.rx.state = .complete) = true := by
  decide

theorem test_witness_OnlyFeedByteMovesReceiver : ∀ b, Instr.sendRequest 7 0 false ≠ .feedByte b := by
  intro b
  exact Instr.noConfusion

theorem test_witness_NotificationsMatchClosings : (pending [⟨7, 0xFFFF, .ack⟩]).txn.wf = true ∧
    answers (exec (.cancelTransaction 7 2) (pending [⟨7, 0xFFFF, .ack⟩])) (fun t => t.txn = []) = true := by decide

theorem test_witness_CatalogChangesAreAnnounced :
    answers (exec (.obj 7 0 [1]) ready) (fun t => t.env.catalog ≠ catK) = true ∧
    answers (exec (.nack 7 0) ready) (fun t => t.env.catalog = catK) = true := by decide +kernel

end Sys2Proof.Tests
end

section
/-! SUPPORT. The layout of a frame (R54, R70): what its builder puts at each offset, and the residue of its checksum. -/

namespace Sys2Proof.Machine

/-! The checksum of a message followed by its own checksum. -/

/-- A byte equal to the accumulator clears it (R100, corner cases). -/
theorem crc8Update_self (c : Byte) : crc8Update c c = 0 := by
  have crcEntry_zero : crcEntry 0 = 0 := by decide
  rw [crc8Update, BitVec.xor_self]
  exact crcEntry_zero

/-- The residue, R104 (3). -/
theorem crc8_append_crc8 (s : List Byte) : crc8 (s ++ [crc8 s]) = 0 := by
  rw [crc8_snoc, crc8Update_self]

/-! The length field. -/

/-- The two bytes of `le16` read back as a number (R79). -/
theorem le16_bytes_toNat (v : Half) :
    (v.extractLsb' 0 8).toNat + 256 * (v.extractLsb' 8 8).toNat = v.toNat := by
  have hlow : (v.extractLsb' 0 8).toNat = v.toNat % 256 := by simp
  have hhigh : (v.extractLsb' 8 8).toNat = v.toNat / 256 % 256 := by simp [Nat.shiftRight_eq_div_pow]
  have hv : v.toNat < 65536 := v.isLt
  omega

/-- The value of `LENGTH` in a frame with payload `p` (R74). -/
def lengthField (p : List Byte) : Half := BitVec.ofNat 16 (Config.headerLen + p.length)

/-- Up to the largest payload the length is not truncated to the field's 16 bits. -/
theorem lengthField_toNat {p : List Byte} (hp : p.length ≤ 255) : (lengthField p).toNat = 10 + p.length := by
  rw [lengthField, Config.headerLen, BitVec.toNat_ofNat]
  exact Nat.mod_eq_of_lt (by omega)

/-! The frame as the bytes its checksum covers, followed by that checksum. -/

/-- All bytes of a frame but the last (R78). -/
def frameBody (t : FrameType) (o : ObjId) (i : InstId) (p : List Byte) : List Byte :=
  frameHeader t.byte (lengthField p) o i ++ p

section
variable (t : FrameType) (o : ObjId) (i : InstId) (p : List Byte)

theorem frameBytes_eq_body_append_crc8 :
    frameBytes t o i p = frameBody t o i p ++ [crc8 (frameBody t o i p)] := rfl

@[simp] theorem frameBytes_dropLast : (frameBytes t o i p).dropLast = frameBody t o i p := by
  rw [frameBytes_eq_body_append_crc8, List.dropLast_concat]

@[simp] theorem frameBytes_getLast? : (frameBytes t o i p).getLast? = some (crc8 (frameBody t o i p)) := by
  rw [frameBytes_eq_body_append_crc8, List.getLast?_concat]

/-- The whole frame, its checksum byte included, has checksum 0. -/
theorem crc8_frameBytes : crc8 (frameBytes t o i p) = 0 := by
  rw [frameBytes_eq_body_append_crc8, crc8_append_crc8]

/-! What stands at each offset (R54). The header's ten bytes are written out by its definition, so that a cut inside it
computes. -/

theorem frameBytes_take_sync_type : (frameBytes t o i p).take 2 = [0x3C, t.byte] := rfl

theorem frameBytes_length_bytes : ((frameBytes t o i p).drop 2).take 2 = le16 (lengthField p) := rfl

theorem frameBytes_id_bytes : ((frameBytes t o i p).drop 4).take 6 = le32 o ++ le16 i := rfl

theorem frameBytes_drop_header : (frameBytes t o i p).drop 10 = p ++ [crc8 (frameBody t o i p)] := rfl

theorem frameBytes_payload_bytes : ((frameBytes t o i p).drop 10).take p.length = p := by
  rw [frameBytes_drop_header, List.take_left]

end

/-- Settles O12: one lemma per field of the frame; the bound on the payload is what the length field needs. -/
theorem frameLayout : Obligations.FrameLayout := by
  intro t o i p hp
  have hlen : ∃ b2 b3, ((frameBytes t o i p).drop 2).take 2 = [b2, b3] ∧
      b2.toNat + 256 * b3.toNat = 10 + p.length :=
    ⟨_, _, frameBytes_length_bytes t o i p, (le16_bytes_toNat _).trans (lengthField_toNat hp)⟩
  have hcrc : (frameBytes t o i p).getLast? = some (crc8 (frameBytes t o i p).dropLast) := by
    rw [frameBytes_getLast?, frameBytes_dropLast]
  exact ⟨frameBytes_length t o i p, frameBytes_take_sync_type t o i p, hlen, frameBytes_id_bytes t o i p,
    frameBytes_payload_bytes t o i p, hcrc, crc8_frameBytes t o i p⟩

end Sys2Proof.Machine
end

section
/-! SUPPORT. The multi-byte fields (R79): a byte put above a shorter value adds to it as unsigned numbers. The numbers of
the fields, and that joining and splitting are inverse, come from that. -/

namespace Sys2Proof.Machine

/-! One byte put in place. -/

/-- The bits of a byte shifted above a value of `k` bits overlap none of its bits: `|` is `+`, as unsigned numbers. -/
theorem toNat_or_byte_shiftLeft {w k : Nat} {v : BitVec w} {b : Byte} (hv : v.toNat < 2 ^ k) (hk : k + 8 ≤ w) :
    (v ||| (b.setWidth w <<< k)).toNat = v.toNat + 2 ^ k * b.toNat := by
  have hext : b.toNat % 2 ^ w = b.toNat :=
    Nat.mod_eq_of_lt (b.isLt.trans_le (Nat.pow_le_pow_right (by decide) (by omega)))
  have hshift : 2 ^ k * b.toNat < 2 ^ w :=
    calc 2 ^ k * b.toNat < 2 ^ k * 2 ^ 8 := Nat.mul_lt_mul_of_pos_left b.isLt (Nat.two_pow_pos k)
      _ = 2 ^ (k + 8) := (pow_add 2 k 8).symm
      _ ≤ 2 ^ w := Nat.pow_le_pow_right (by decide) hk
  rw [BitVec.toNat_or, BitVec.toNat_shiftLeft, BitVec.toNat_setWidth, hext, Nat.shiftLeft_eq, mul_comm,
    Nat.mod_eq_of_lt hshift, Nat.or_comm, ← Nat.two_pow_add_eq_or_of_lt hv, add_comm]

/-- The high byte of a u16 field, above a value of one byte (R124, R126). -/
theorem putHigh_toNat {v : Half} (hv : v.toNat < 256) (b : Byte) :
    (putHigh v b).toNat = v.toNat + 256 * b.toNat :=
  toNat_or_byte_shiftLeft (k := 8) hv (by decide)

/-- Byte `k` of the object id, above a value of `k` bytes (R125). -/
theorem putByte_toNat {v : ObjId} {k : Nat} (hv : v.toNat < 2 ^ (8 * k)) (hk : k ≤ 3) (b : Byte) :
    (putByte v k b).toNat = v.toNat + 2 ^ (8 * k) * b.toNat :=
  toNat_or_byte_shiftLeft hv (by omega)

/-! The joined fields. -/

/-- The receive machine's assembly of a u16 field (R124, R126) is the whole field. -/
theorem putHigh_setWidth (b0 b1 : Byte) : putHigh (b0.setWidth 16) b1 = join16 b0 b1 := rfl

/-- The receive machine's assembly of the object id (R125) is the whole field. -/
theorem putByte_setWidth (b0 b1 b2 b3 : Byte) :
    putByte (putByte (putByte (b0.setWidth 32) 1 b1) 2 b2) 3 b3 = join32 b0 b1 b2 b3 := rfl

theorem join16_toNat (b0 b1 : Byte) : (join16 b0 b1).toNat = b0.toNat + 256 * b1.toNat := by
  have h0 : (b0.setWidth 16).toNat = b0.toNat := BitVec.toNat_setWidth_of_le (by decide)
  rw [← putHigh_setWidth, putHigh_toNat (h0 ▸ b0.isLt), h0]

theorem join32_toNat (b0 b1 b2 b3 : Byte) :
    (join32 b0 b1 b2 b3).toNat = b0.toNat + 256 * b1.toNat + 65536 * b2.toNat + 16777216 * b3.toNat := by
  have h0 : (b0.setWidth 32).toNat = b0.toNat := BitVec.toNat_setWidth_of_le (by decide)
  have h1 := putByte_toNat (v := b0.setWidth 32) (k := 1) (by omega) (by decide) b1
  have h2 := putByte_toNat (v := putByte (b0.setWidth 32) 1 b1) (k := 2) (by omega) (by decide) b2
  have h3 := putByte_toNat (v := putByte (putByte (b0.setWidth 32) 1 b1) 2 b2) (k := 3) (by omega) (by decide) b3
  rw [← putByte_setWidth]
  omega

/-! Joining and splitting are inverse. -/

/-- The four bytes of `le32` read back as a number (R79). -/
theorem le32_bytes_toNat (v : ObjId) :
    (v.extractLsb' 0 8).toNat + 256 * (v.extractLsb' 8 8).toNat + 65536 * (v.extractLsb' 16 8).toNat +
      16777216 * (v.extractLsb' 24 8).toNat = v.toNat := by
  have hbyte (k : Nat) : (v.extractLsb' k 8).toNat = v.toNat / 2 ^ k % 256 := by
    rw [BitVec.extractLsb'_toNat, Nat.shiftRight_eq_div_pow]
  rw [hbyte, hbyte, hbyte, hbyte]
  omega

/-- The bytes of a u16 field, joined again. -/
@[simp] theorem join16_extractLsb' (v : Half) : join16 (v.extractLsb' 0 8) (v.extractLsb' 8 8) = v :=
  BitVec.eq_of_toNat_eq ((join16_toNat _ _).trans (le16_bytes_toNat v))

/-- The bytes of a u32 field, joined again. -/
@[simp] theorem join32_extractLsb' (v : ObjId) :
    join32 (v.extractLsb' 0 8) (v.extractLsb' 8 8) (v.extractLsb' 16 8) (v.extractLsb' 24 8) = v :=
  BitVec.eq_of_toNat_eq ((join32_toNat _ _ _ _).trans (le32_bytes_toNat v))

/-- Two bytes are determined by the number they stand for, so splitting what was joined gives them back. -/
@[simp] theorem le16_join16 (b0 b1 : Byte) : le16 (join16 b0 b1) = [b0, b1] := by
  have hnum := (le16_bytes_toNat (join16 b0 b1)).trans (join16_toNat b0 b1)
  have h0 : (join16 b0 b1).extractLsb' 0 8 = b0 := BitVec.eq_of_toNat_eq (by omega)
  have h1 : (join16 b0 b1).extractLsb' 8 8 = b1 := BitVec.eq_of_toNat_eq (by omega)
  rw [le16, h0, h1]

/-- The same for four bytes. -/
@[simp] theorem le32_join32 (b0 b1 b2 b3 : Byte) : le32 (join32 b0 b1 b2 b3) = [b0, b1, b2, b3] := by
  have hnum := (le32_bytes_toNat (join32 b0 b1 b2 b3)).trans (join32_toNat b0 b1 b2 b3)
  have h0 : (join32 b0 b1 b2 b3).extractLsb' 0 8 = b0 := BitVec.eq_of_toNat_eq (by omega)
  have h1 : (join32 b0 b1 b2 b3).extractLsb' 8 8 = b1 := BitVec.eq_of_toNat_eq (by omega)
  have h2 : (join32 b0 b1 b2 b3).extractLsb' 16 8 = b2 := BitVec.eq_of_toNat_eq (by omega)
  have h3 : (join32 b0 b1 b2 b3).extractLsb' 24 8 = b3 := BitVec.eq_of_toNat_eq (by omega)
  rw [le32, h0, h1, h2, h3]

/-- Settles O5: the numbers of the joined fields, and the two inverses for each width. -/
theorem fieldsAreLittleEndian : Obligations.FieldsAreLittleEndian :=
  ⟨fun b0 b1 => ⟨join16_toNat b0 b1, le16_join16 b0 b1, putHigh_setWidth b0 b1⟩,
    fun b0 b1 b2 b3 => ⟨join32_toNat b0 b1 b2 b3, le32_join32 b0 b1 b2 b3, putByte_setWidth b0 b1 b2 b3⟩,
    fun v => ⟨_, _, rfl, join16_extractLsb' v⟩,
    fun v => ⟨_, _, _, _, rfl, join32_extractLsb' v⟩⟩

end Sys2Proof.Machine
end

section
/-! SUPPORT. The two checksum operations (R100, R101): what each appends to the output record, and the recursive fold of
the model as the left fold of the spec. -/

namespace Sys2Proof.Machine

/-! What the operations do to the state: one more entry of the output record, and nothing else. -/

theorem exec_crc8Update (c b : Byte) (s : State) :
    exec (.crc8Update c b) s = .next (emit (.result (.crc (crc8Update c b))) s) := rfl

theorem exec_crc8UpdateMany (c : Byte) (data : List Byte) (s : State) :
    exec (.crc8UpdateMany c data) s = .next (emit (.result (.crc (crc8UpdateMany c data))) s) := rfl

/-- Settles O9: the update is the table entry by definition, and the corner cases are the rules about equal operands and
about the sync byte. -/
theorem crc8UpdateResult : Obligations.Crc8UpdateResult :=
  ⟨exec_crc8Update, crc8Update_self 0, crc8Update_self, crc8_syncVal⟩

/-! The fold. -/

/-- The model's recursion over the bytes is the left fold, byte 0 first. -/
theorem crc8UpdateMany_eq_foldl (c : Byte) (data : List Byte) : crc8UpdateMany c data = data.foldl crc8Update c := by
  induction data generalizing c with
  | nil => rfl
  | cons b data ih => rw [crc8UpdateMany_cons, List.foldl_cons, ih]

/-- The checksum of a message is the fold from `CRC_INIT`. -/
theorem crc8_eq_foldl (s : List Byte) : crc8 s = s.foldl crc8Update 0 :=
  crc8UpdateMany_eq_foldl Config.crcInit s

/-- The worked example of R101: the accumulator before the first byte and after each byte of the ten-byte header. -/
theorem scanl_crc8Update_example :
    [0x3C, 0x21, 0x0A, 0x00, 0x01, 0x00, 0x00, 0x00, 0x00, 0x00].scanl crc8Update 0 =
      [0, 0xB4, 0xE2, 0x96, 0xEB, 0x98, 0xC1, 0x49, 0xF8, 0xE6, 0xBC] := by decide

/-- Settles O10: by induction over the data the result is the left fold; the other parts are the rules of the fold. -/
theorem crc8UpdateManyResult : Obligations.Crc8UpdateManyResult := by
  have hexec (c : Byte) (data : List Byte) (s : State) : exec (.crc8UpdateMany c data) s =
      .next { s with out := s.out ++ [.result (.crc (data.foldl crc8Update c))] } := by
    rw [exec_crc8UpdateMany, crc8UpdateMany_eq_foldl, emit]
  exact ⟨hexec, crc8UpdateMany_nil, crc8UpdateMany_append, crc8_eq_foldl, scanl_crc8Update_example⟩

end Sys2Proof.Machine
end

section
/-! SUPPORT. `BUILD_FRAME` (R110): the two answers of the framer, put out as a result and nothing else. -/

namespace Sys2Proof.Machine

section
variable {t : FrameType} {o : ObjId} {i : InstId} {p : List Byte}

theorem buildFrame_of_le (hp : p.length ≤ 255) : buildFrame t o i p = .ok (frameBytes t o i p) := by
  obtain ⟨hlarge, -⟩ | ⟨-, hok⟩ := buildFrame_cases t o i p
  · omega
  · exact hok

theorem buildFrame_of_large (hp : 256 ≤ p.length) : buildFrame t o i p = .error .payloadTooLarge := by
  obtain ⟨-, herr⟩ | ⟨hsmall, -⟩ := buildFrame_cases t o i p
  · exact herr
  · omega

end

theorem exec_buildFrame (t : FrameType) (o : ObjId) (i : InstId) (p : List Byte) (s : State) :
    exec (.buildFrame t o i p) s = .next (emit (.result (frameResult (buildFrame t o i p))) s) := rfl

/-- Settles O11: the framer's answer on each side of the 255/256 boundary; the bytes are those of the frame, its checksum
read as the left fold. -/
theorem buildFrameResult : Obligations.BuildFrameResult := by
  intro t o i p s
  constructor
  · intro hp
    have hexec : exec (.buildFrame t o i p) s = .next { s with out := s.out ++ [.result (.frame (frameBytes t o i p))] } := by
      rw [exec_buildFrame, buildFrame_of_le hp, frameResult, emit]
    have hbytes : frameBytes t o i p = frameBody t o i p ++ [(frameBody t o i p).foldl crc8Update 0] := by
      rw [frameBytes_eq_body_append_crc8, crc8_eq_foldl]
    exact ⟨_, hexec, frameBytes_length t o i p, hbytes⟩
  · intro hp
    rw [exec_buildFrame, buildFrame_of_large hp, frameResult, emit]

end Sys2Proof.Machine
end

section
/-! SUPPORT. One byte that "became part of a frame still in progress" (R132): what `FEED_BYTE` does in each state of the
receive machine when its checks pass, and what the byte that completes a frame does. -/

namespace Sys2Proof.Machine

/-! The prologue (R121) and the outcome (R132) around the rule of a state. -/

/-- In a state that recovery leaves alone the prologue only counts the byte. -/
theorem exec_feedByte_of_recover {s : State} (h : s.rx.state.recover = s.rx.state) (b : Byte) :
    exec (.feedByte b) s = feedInState b (countRxByte s) := by
  have hbegin : beginByte s = countRxByte s := by rw [beginByte, h]; rfl
  rw [← hbegin]
  rfl

/-- A rule that passes its checks ends in registers `r` of a frame still in progress. With the byte counted before it and
the outcome after it, that is the step as the statements name it. -/
theorem exec_feedByte_of_rule {s u : State} {b : Byte} {r : Rx}
    (hexec : exec (.feedByte b) s = .next (returnOutcome u)) (hrule : u = { countRxByte s with rx := r })
    (hr : r.state.inProgress = true) : exec (.feedByte b) s = .next (s.awaiting r) := by
  rw [hexec, hrule, returnOutcome, hr]
  rfl

section
variable {s : State}

/-- In a state that searches the prologue also puts the machine in `Sync` (R130, R131, R238). -/
theorem exec_feedByte_of_searching (h : s.rx.state = .sync ∨ s.rx.state = .complete ∨ s.rx.state = .error) (b : Byte) :
    exec (.feedByte b) s = .next (returnOutcome (rxSync b (setRxState .sync (countRxByte s)))) := by
  have hbegin : beginByte s = setRxState .sync (countRxByte s) := by
    obtain h | h | h := h <;> rw [beginByte, h] <;> rfl
  have hexec : exec (.feedByte b) s = feedInState b (beginByte s) := rfl
  rw [hexec, hbegin]
  rfl

theorem exec_feedByte_of_type (h : s.rx.state = .type) (b : Byte) :
    exec (.feedByte b) s = .next (returnOutcome (rxType b (countRxByte s))) := by
  rw [exec_feedByte_of_recover (by rw [h]; rfl), feedInState, countRxByte_rx, h]

theorem exec_feedByte_of_size (h : s.rx.state = .size) (b : Byte) :
    exec (.feedByte b) s = .next (returnOutcome (rxSize b (countRxByte s))) := by
  rw [exec_feedByte_of_recover (by rw [h]; rfl), feedInState, countRxByte_rx, h]

theorem exec_feedByte_of_objectId (h : s.rx.state = .objectId) (b : Byte) :
    exec (.feedByte b) s = .next (returnOutcome (rxObjectId b (countRxByte s))) := by
  rw [exec_feedByte_of_recover (by rw [h]; rfl), feedInState, countRxByte_rx, h]

theorem exec_feedByte_of_instanceId (h : s.rx.state = .instanceId) (b : Byte) :
    exec (.feedByte b) s = .next (returnOutcome (rxInstanceId b (countRxByte s))) := by
  rw [exec_feedByte_of_recover (by rw [h]; rfl), feedInState, countRxByte_rx, h]

theorem exec_feedByte_of_data (h : s.rx.state = .data) (hc : s.rx.count ≠ 255) (b : Byte) :
    exec (.feedByte b) s = .next (returnOutcome (rxData b (countRxByte s))) := by
  rw [exec_feedByte_of_recover (by rw [h]; rfl), feedInState, countRxByte_rx, h]
  exact if_neg hc

/-! The byte each state waits for. -/

theorem exec_feedByte_syncVal (h : s.rx.state = .sync ∨ s.rx.state = .complete ∨ s.rx.state = .error) :
    exec (.feedByte Config.syncVal) s = .next (s.awaiting
      { s.rx with crc := crc8Update Config.crcInit Config.syncVal, pktlen := 1, count := 0, state := .type }) :=
  exec_feedByte_of_rule (exec_feedByte_of_searching h _) (if_pos rfl) rfl

theorem exec_feedByte_type (h : s.rx.state = .type) {b : Byte} (hb : (FrameType.ofByte b).isSome = true) :
    exec (.feedByte b) s = .next (s.awaiting { s.rx.fold b with type := b, count := 0, state := .size }) :=
  exec_feedByte_of_rule (exec_feedByte_of_type h b) (if_pos hb) rfl

theorem exec_feedByte_size_low (h : s.rx.state = .size) (hc : s.rx.count = 0) (b : Byte) :
    exec (.feedByte b) s = .next (s.awaiting { s.rx.fold b with size := b.setWidth 16, count := 1 }) :=
  exec_feedByte_of_rule (exec_feedByte_of_size h b) (if_pos hc) (by rw [Rx.fold_state, h]; rfl)

/-- The second byte of the length field, when the value is one that state `Size` accepts. -/
theorem exec_feedByte_size_high (h : s.rx.state = .size) (hc : s.rx.count ≠ 0) {b : Byte}
    (hmin : 10 ≤ (putHigh s.rx.size b).toNat) (hmax : (putHigh s.rx.size b).toNat ≤ 266) :
    exec (.feedByte b) s =
      .next (s.awaiting { s.rx.fold b with size := putHigh s.rx.size b, count := 0, state := .objectId }) := by
  have hlegal : ¬((putHigh s.rx.size b).toNat < Config.sizeMin ∨ Config.sizeMax < (putHigh s.rx.size b).toNat) :=
    not_or.2 ⟨hmin.not_gt, hmax.not_gt⟩
  exact exec_feedByte_of_rule (exec_feedByte_of_size h b) ((if_neg hc).trans (if_neg hlegal)) rfl

/-! The object id takes four bytes: the first replaces the register, a later one is put above those before it (R125). -/

theorem nextObjid_first {r : Rx} (hc : r.count = 0) (b : Byte) : nextObjid r b = b.setWidth 32 := if_pos hc

theorem nextObjid_later {r : Rx} (hc : r.count ≠ 0) (b : Byte) : nextObjid r b = putByte r.objid r.count.toNat b :=
  if_neg hc

theorem exec_feedByte_objectId_first (h : s.rx.state = .objectId) (hc : s.rx.count = 0) (b : Byte) :
    exec (.feedByte b) s = .next (s.awaiting { s.rx.fold b with objid := b.setWidth 32, count := 1 }) := by
  rw [← nextObjid_first hc, show (1 : BitVec 8) = s.rx.count + 1 by rw [hc]; rfl]
  exact exec_feedByte_of_rule (exec_feedByte_of_objectId h b)
    (if_neg (by rw [countRxByte_rx, hc]; decide)) (by rw [Rx.fold_state, h]; rfl)

theorem exec_feedByte_objectId_next (h : s.rx.state = .objectId) (hc : s.rx.count = 1 ∨ s.rx.count = 2) (b : Byte) :
    exec (.feedByte b) s = .next (s.awaiting
      { s.rx.fold b with objid := putByte s.rx.objid s.rx.count.toNat b, count := s.rx.count + 1 }) := by
  have hlater : s.rx.count ≠ 0 := by rcases hc with hc | hc <;> rw [hc] <;> decide
  have hnext : s.rx.count + 1 ≠ 4 := by rcases hc with hc | hc <;> rw [hc] <;> decide
  rw [← nextObjid_later hlater]
  exact exec_feedByte_of_rule (exec_feedByte_of_objectId h b) (if_neg hnext) (by rw [Rx.fold_state, h]; rfl)

theorem exec_feedByte_objectId_last (h : s.rx.state = .objectId) (hc : s.rx.count = 3) (b : Byte) :
    exec (.feedByte b) s = .next (s.awaiting
      { s.rx.fold b with objid := putByte s.rx.objid 3 b, count := 0, state := .instanceId }) := by
  have hlater : nextObjid s.rx b = putByte s.rx.objid 3 b := by
    rw [nextObjid_later (by rw [hc]; decide), hc]
    rfl
  rw [← hlater]
  exact exec_feedByte_of_rule (exec_feedByte_of_objectId h b) (if_pos (by rw [countRxByte_rx, hc]; rfl)) rfl

/-! The instance id, with payload length discovery after its second byte (R126, R127). -/

theorem exec_feedByte_instanceId_low (h : s.rx.state = .instanceId) (hc : s.rx.count = 0) (b : Byte) :
    exec (.feedByte b) s = .next (s.awaiting { s.rx.fold b with instid := b.setWidth 16, count := 1 }) :=
  exec_feedByte_of_rule (exec_feedByte_of_instanceId h b) (if_pos hc) (by rw [Rx.fold_state, h]; rfl)

/-- Discovery of a payload length that passes its three checks (R127). -/
theorem rxDiscover_of_expected {m : ObjectMeta} (hm : s.env.catalog.lookup s.rx.objid = some m)
    (hmax : expectedLength s.rx.type m ≤ 255) (hlen : 10 + expectedLength s.rx.type m = s.rx.size.toNat) :
    rxDiscover s = { s with rx := { s.rx with
      objMeta := some m
      expected := BitVec.ofNat 8 (expectedLength s.rx.type m)
      state := if 0 < expectedLength s.rx.type m then .data else .checksum } } := by
  obtain ⟨hnone, -⟩ | ⟨m', hm', hcase⟩ := rxDiscover_cases s
  · exact absurd (hnone.symm.trans hm) nofun
  · obtain rfl : m' = m := Option.some.inj (hm'.symm.trans hm)
    obtain ⟨hlarge, -⟩ | ⟨-, hne, -⟩ | ⟨-, -, hok⟩ := hcase
    · omega
    · exact absurd hlen hne
    · exact hok

/-- The second byte of the instance id, when the object is known and the length field agrees with it (R126, R127). -/
theorem exec_feedByte_instanceId_high (h : s.rx.state = .instanceId) (hc : s.rx.count ≠ 0) {m : ObjectMeta}
    (hm : s.env.catalog.lookup s.rx.objid = some m) (hmax : expectedLength s.rx.type m ≤ 255)
    (hlen : 10 + expectedLength s.rx.type m = s.rx.size.toNat) (b : Byte) :
    exec (.feedByte b) s = .next (s.awaiting { s.rx.fold b with
      instid := putHigh s.rx.instid b
      count := 0
      objMeta := some m
      expected := BitVec.ofNat 8 (expectedLength s.rx.type m)
      state := if 0 < expectedLength s.rx.type m then .data else .checksum }) :=
  exec_feedByte_of_rule (exec_feedByte_of_instanceId h b) ((if_neg hc).trans (rxDiscover_of_expected hm hmax hlen))
    (by dsimp only; split <;> rfl)

/-! The payload (R128). -/

theorem exec_feedByte_data_next (h : s.rx.state = .data) (hc : s.rx.count ≠ 255)
    (hnext : s.rx.count + 1 ≠ s.rx.expected) (b : Byte) :
    exec (.feedByte b) s = .next (s.awaiting { s.rx.fold b with
      buf := Memory.write s.rx.count.toNat b s.rx.buf, count := s.rx.count + 1 }) :=
  exec_feedByte_of_rule (exec_feedByte_of_data h hc b) (if_neg hnext) (by rw [Rx.fold_state, h]; rfl)

theorem exec_feedByte_data_last (h : s.rx.state = .data) (hc : s.rx.count ≠ 255)
    (hlast : s.rx.count + 1 = s.rx.expected) (b : Byte) :
    exec (.feedByte b) s = .next (s.awaiting { s.rx.fold b with
      buf := Memory.write s.rx.count.toNat b s.rx.buf, count := s.rx.count + 1, state := .checksum }) :=
  exec_feedByte_of_rule (exec_feedByte_of_data h hc b) (if_pos hlast) rfl

end

/-! The byte that completes a frame (R129, R136). -/

/-- A frame row is the dispatch of its fields; a type that carries no payload is dispatched with none (R77). -/
theorem exec_frameInstr {t : FrameType} {p : List Byte} (h : t.carriesPayload = true ∨ p = []) (o : ObjId) (i : InstId)
    (s : State) : exec (frameInstr t o i p) s = .next (finishFrame t o i p (dispatch t o i p s)) := by
  cases t with
  | obj => rfl
  | objAck => rfl
  | objReq | ack | nack =>
    obtain rfl : p = [] := h.resolve_left Bool.false_ne_true
    rfl

/-- The accumulated CRC as checksum byte, after as many bytes as the length field says. -/
theorem exec_feedByte_checksum {s : State} (h : s.rx.state = .checksum)
    (hlen : (s.rx.pktlen + 1).toNat = s.rx.size.toNat + 1) {t : FrameType} (ht : FrameType.ofByte s.rx.type = some t)
    {p : List Byte} (hpayload : s.rx.payload = p) (hp : t.carriesPayload = true ∨ p = []) :
    exec (.feedByte s.rx.crc) s = exec (frameInstr t s.rx.objid s.rx.instid p)
      { s with rx := { s.rx with pktlen := s.rx.pktlen + 1, state := .complete }, stats := s.fedStats } := by
  subst hpayload
  rw [exec_feedByte_of_recover (by rw [h]; rfl), exec_frameInstr hp]
  obtain ⟨hne, -⟩ | ⟨-, hne, -⟩ | ⟨-, -, hok⟩ := rxChecksum_cases s.rx.crc (countRxByte s)
  · exact absurd rfl hne
  · exact absurd hlen hne
  · simp only [feedInState, countRxByte_rx, h, hok, if_true, completeFrame, ht]
    rfl

end Sys2Proof.Machine
end

section
/-! SUPPORT. A frame fed byte by byte (R111): each field takes the machine from the state that waits for it to the next one,
and one definition says what a run of bytes inside a frame leaves. -/

namespace Sys2Proof.Machine

/-! Runs inside a frame. -/

/-- The state after `n` bytes that each became part of a frame still in progress: registers `r`, `n` bytes counted and `n`
outcomes put out. -/
def State.awaitingMany (s : State) (n : Nat) (r : Rx) : State :=
  { s with
    rx := r
    stats := { s.stats with rxBytes := (fun k => satInc s.params.statW k 1)^[n] s.stats.rxBytes }
    out := s.out ++ List.replicate n (.outcome .awaitingMore) }

/-- Fed to `s`, the bytes all become part of a frame still in progress, and leave registers `r`. -/
def Collects (s : State) (bytes : List Byte) (r : Rx) : Prop :=
  feedAll bytes s = .next (s.awaitingMany bytes.length r)

@[simp] theorem State.awaitingMany_rx (s : State) (n : Nat) (r : Rx) : (s.awaitingMany n r).rx = r := rfl

theorem State.awaitingMany_add (s : State) (m n : Nat) (r r' : Rx) :
    (s.awaitingMany m r).awaitingMany n r' = s.awaitingMany (m + n) r' := by
  simp only [State.awaitingMany, List.append_assoc, List.replicate_append_replicate, ← Function.iterate_add_apply,
    Nat.add_comm n m]

theorem feedAll_append {xs ys : List Byte} {s t : State} (h : feedAll xs s = .next t) :
    feedAll (xs ++ ys) s = feedAll ys t := by
  induction xs generalizing s with
  | nil =>
    cases h
    rfl
  | cons b xs ih =>
    simp only [List.cons_append, feedAll] at h ⊢
    cases hexec : exec (.feedByte b) s with
    | next s' =>
      rw [hexec] at h
      exact ih h
    | fault f => rw [hexec] at h; cases h
    | refused r => rw [hexec] at h; cases h

theorem feedAll_singleton (b : Byte) (s : State) : feedAll [b] s = exec (.feedByte b) s := by
  cases h : exec (.feedByte b) s <;> simp [feedAll, h]

theorem Collects.single {s : State} {b : Byte} {r : Rx} (h : exec (.feedByte b) s = .next (s.awaiting r)) :
    Collects s [b] r := by
  rw [Collects, feedAll_singleton, h]
  rfl

theorem Collects.append {s : State} {xs ys : List Byte} {r r' : Rx} (h : Collects s xs r)
    (h' : Collects (s.awaitingMany xs.length r) ys r') : Collects s (xs ++ ys) r' := by
  rw [Collects, feedAll_append h, h', State.awaitingMany_add, List.length_append]

theorem Collects.cons {s : State} {b : Byte} {bytes : List Byte} {r r' : Rx}
    (h : exec (.feedByte b) s = .next (s.awaiting r)) (h' : Collects (s.awaiting r) bytes r') :
    Collects s (b :: bytes) r' :=
  (Collects.single h).append h'

/-! The fields of a frame, one after the other. -/

/-- Several bytes folded into the CRC and counted. -/
def Rx.foldMany (bytes : List Byte) (r : Rx) : Rx := bytes.foldl (fun r b => r.fold b) r

theorem Rx.foldMany_eq (bytes : List Byte) (r : Rx) : r.foldMany bytes =
    { r with crc := crc8UpdateMany r.crc bytes, pktlen := r.pktlen + BitVec.ofNat 9 bytes.length } := by
  induction bytes generalizing r with
  | nil => simp [Rx.foldMany]
  | cons b bytes ih =>
    have hlen : r.pktlen + 1#9 + BitVec.ofNat 9 bytes.length = r.pktlen + BitVec.ofNat 9 (bytes.length + 1) := by
      rw [Nat.add_comm, BitVec.ofNat_add, BitVec.add_assoc]
    rw [show r.foldMany (b :: bytes) = (r.fold b).foldMany bytes from rfl, ih, List.length_cons, ← hlen]
    rfl

/-! Every field is joined from bytes. -/

theorem exists_join16 (v : Half) : ∃ b0 b1, v = join16 b0 b1 := ⟨_, _, (join16_extractLsb' v).symm⟩

theorem exists_join32 (v : ObjId) : ∃ b0 b1 b2 b3, v = join32 b0 b1 b2 b3 := ⟨_, _, _, _, (join32_extractLsb' v).symm⟩

/-- The payload length fits the register `rx_expected` (R28). -/
theorem expected_toNat {n : Nat} (hn : n ≤ 255) : (BitVec.ofNat 8 n).toNat = n := by
  rw [BitVec.toNat_ofNat]
  exact Nat.mod_eq_of_lt (by omega)

section
variable {s : State}

/-- The sync byte and the type byte (R122, R123). -/
theorem collects_sync_type (h : s.rx.state = .sync ∨ s.rx.state = .complete ∨ s.rx.state = .error) (t : FrameType) :
    Collects s [Config.syncVal, t.byte]
      { s.rx with crc := crc8 [Config.syncVal, t.byte], pktlen := 2, type := t.byte, count := 0, state := .size } :=
  Collects.cons (exec_feedByte_syncVal h)
    (Collects.single (exec_feedByte_type rfl (by rw [FrameType.ofByte_byte]; rfl)))

/-- The length field (R124). -/
theorem collects_size (h : s.rx.state = .size) (hc : s.rx.count = 0) {v : Half} (hmin : 10 ≤ v.toNat)
    (hmax : v.toNat ≤ 266) :
    Collects s (le16 v) (Rx.foldMany (le16 v) { s.rx with size := v, count := 0, state := .objectId }) := by
  obtain ⟨b0, b1, rfl⟩ := exists_join16 v
  have hone : (1 : BitVec 8) ≠ 0 := by decide
  rw [le16_join16]
  refine Collects.cons (exec_feedByte_size_low h hc b0) (Collects.single (exec_feedByte_size_high ?_ ?_ ?_ ?_))
  exacts [h, hone, hmin, hmax]

/-- The object id (R125). -/
theorem collects_objectId (h : s.rx.state = .objectId) (hc : s.rx.count = 0) (o : ObjId) :
    Collects s (le32 o) (Rx.foldMany (le32 o) { s.rx with objid := o, count := 0, state := .instanceId }) := by
  obtain ⟨b0, b1, b2, b3, rfl⟩ := exists_join32 o
  rw [le32_join32]
  refine Collects.cons (exec_feedByte_objectId_first h hc b0) ?_
  refine Collects.cons (exec_feedByte_objectId_next ?_ (.inl rfl) b1) ?_
  · exact h
  refine Collects.cons (exec_feedByte_objectId_next ?_ (.inr rfl) b2) ?_
  · exact h
  refine Collects.single (exec_feedByte_objectId_last ?_ rfl b3)
  exact h

/-- The instance id of a frame whose object is known with the payload length the length field says (R126, R127). -/
theorem collects_instanceId (h : s.rx.state = .instanceId) (hc : s.rx.count = 0) {m : ObjectMeta}
    (hm : s.env.catalog.lookup s.rx.objid = some m) (hmax : expectedLength s.rx.type m ≤ 255)
    (hlen : 10 + expectedLength s.rx.type m = s.rx.size.toNat) (i : InstId) :
    Collects s (le16 i) (Rx.foldMany (le16 i) { s.rx with
      instid := i
      count := 0
      objMeta := some m
      expected := BitVec.ofNat 8 (expectedLength s.rx.type m)
      state := if 0 < expectedLength s.rx.type m then .data else .checksum }) := by
  obtain ⟨b0, b1, rfl⟩ := exists_join16 i
  have hone : (1 : BitVec 8) ≠ 0 := by decide
  rw [le16_join16]
  refine Collects.cons (exec_feedByte_instanceId_low h hc b0)
    (Collects.single (exec_feedByte_instanceId_high ?_ ?_ ?_ ?_ ?_ b1))
  exacts [h, hone, hm, hmax, hlen]

/-- The payload, from any index of the buffer to its expected end (R128). -/
theorem collects_payload {p : List Byte} (hp : p ≠ []) (h : s.rx.state = .data) {a : Nat}
    (ha : s.rx.count.toNat = a) (hexp : s.rx.expected.toNat = a + p.length) :
    Collects s p (Rx.foldMany p
      { s.rx with buf := s.rx.buf.writeAll a p, count := s.rx.expected, state := .checksum }) := by
  induction p generalizing s a with
  | nil => exact absurd rfl hp
  | cons b p ih =>
    subst ha
    rw [List.length_cons] at hexp
    have hlt : s.rx.expected.toNat < 256 := s.rx.expected.isLt
    have hcount : (s.rx.count + 1).toNat = s.rx.count.toNat + 1 :=
      BitVec.toNat_add_of_lt (show s.rx.count.toNat + 1 < 2 ^ 8 by omega)
    have hc : s.rx.count ≠ 255 := by
      rw [ne_eq, ← BitVec.toNat_inj, show (255 : BitVec 8).toNat = 255 from rfl]
      omega
    by_cases hlast : p = []
    · subst hlast
      have hend : s.rx.count + 1 = s.rx.expected := BitVec.eq_of_toNat_eq (hcount.trans hexp.symm)
      rw [← hend]
      exact Collects.single (exec_feedByte_data_last h hc hend b)
    · have hpos : 0 < p.length := List.length_pos_iff.2 hlast
      have hnext : s.rx.count + 1 ≠ s.rx.expected := by
        rw [ne_eq, ← BitVec.toNat_inj]
        omega
      have hrest : s.rx.expected.toNat = s.rx.count.toNat + 1 + p.length := by omega
      refine Collects.cons (exec_feedByte_data_next h hc hnext b) (ih hlast ?_ ?_ ?_)
      exacts [h, hcount, hrest]

/-! The whole frame but its checksum byte. -/

/-- The header of a frame whose object is known with the payload length that the length field says. -/
theorem collects_header (h : s.rx.state = .sync ∨ s.rx.state = .complete ∨ s.rx.state = .error) {t : FrameType}
    {o : ObjId} {m : ObjectMeta} (hm : s.env.catalog.lookup o = some m) (hmax : expectedLength t.byte m ≤ 255)
    {len : Half} (hlen : 10 + expectedLength t.byte m = len.toNat) (i : InstId) :
    Collects s (frameHeader t.byte len o i) { s.rx with
      state := if 0 < expectedLength t.byte m then .data else .checksum
      crc := crc8 (frameHeader t.byte len o i)
      type := t.byte
      size := len
      objid := o
      instid := i
      count := 0
      expected := BitVec.ofNat 8 (expectedLength t.byte m)
      pktlen := 10
      objMeta := some m } :=
  (((collects_sync_type h t).append (collects_size rfl rfl (by omega) (by omega))).append
    (collects_objectId rfl rfl o)).append (collects_instanceId rfl rfl hm hmax hlen i)

/-- The payload length that state `InstanceId` works out is that of the frame (R77, R127). -/
theorem expectedLength_byte (t : FrameType) (m : ObjectMeta) :
    expectedLength t.byte m = if t.carriesPayload then m.fixedSize else 0 := by
  cases t <;> rfl

theorem Catalog.expects_iff {c : Catalog} {t : FrameType} {o : ObjId} {n : Nat} :
    c.expects t o n ↔ ∃ m, c.lookup o = some m ∧ expectedLength t.byte m = n := by
  cases ht : t.carriesPayload <;> simp [Catalog.expects, expectedLength_byte, ht, eq_comm]

theorem Catalog.expects.carriesPayload_or_nil {c : Catalog} {t : FrameType} {o : ObjId} {p : List Byte}
    (h : c.expects t o p.length) : t.carriesPayload = true ∨ p = [] := by
  obtain ⟨m, -, hlen⟩ := h
  cases ht : t.carriesPayload with
  | true => exact .inl rfl
  | false => exact .inr (List.eq_nil_of_length_eq_zero (by simpa [ht] using hlen))

/-- The registers that wait for the checksum of a frame whose object is `m`. -/
def Rx.atChecksum (r : Rx) (t : FrameType) (o : ObjId) (i : InstId) (p : List Byte) (m : ObjectMeta) : Rx :=
  { rxBeforeChecksum r t.byte (lengthField p) o i p with objMeta := some m }

/-- All bytes of an expected frame but the last leave the registers that wait for its checksum. -/
theorem collects_body (h : s.rx.state = .sync ∨ s.rx.state = .complete ∨ s.rx.state = .error) {t : FrameType} {o : ObjId}
    {p : List Byte} {m : ObjectMeta} (hm : s.env.catalog.lookup o = some m) (he : expectedLength t.byte m = p.length)
    (hp : p.length ≤ 255) (i : InstId) :
    Collects s (frameBody t o i p) (s.rx.atChecksum t o i p m) := by
  have hheader := collects_header h hm (he.trans_le hp) (len := lengthField p) (by rw [he, lengthField_toNat hp]) i
  rw [he] at hheader
  by_cases hnil : p = []
  · subst hnil
    exact hheader
  · have hpos : 0 < p.length := List.length_pos_iff.2 hnil
    rw [if_pos hpos] at hheader
    have hbody := hheader.append (collects_payload hnil rfl rfl ((expected_toNat hp).trans (Nat.zero_add _).symm))
    rw [Rx.foldMany_eq] at hbody
    have hcrc : crc8 (frameHeader t.byte (lengthField p) o i ++ p) =
        crc8UpdateMany (crc8 (frameHeader t.byte (lengthField p) o i)) p := crc8UpdateMany_append _ _ _
    have hpktlen : BitVec.ofNat 9 (Config.headerLen + p.length) = 10 + BitVec.ofNat 9 p.length :=
      BitVec.ofNat_add _ _
    rw [Rx.atChecksum, rxBeforeChecksum, hcrc, hpktlen]
    exact hbody

end

/-! The checksum byte. -/

theorem Rx.atChecksum_crc (r : Rx) (t : FrameType) (o : ObjId) (i : InstId) (p : List Byte) (m : ObjectMeta) :
    (r.atChecksum t o i p m).crc = crc8 (frameBody t o i p) := by
  rw [Rx.atChecksum, rxBeforeChecksum, frameBody]

theorem Rx.atChecksum_payload {r : Rx} {p : List Byte} (hbuf : r.buf.wf = true) (hp : p.length ≤ 255) (t : FrameType)
    (o : ObjId) (i : InstId) (m : ObjectMeta) : (r.atChecksum t o i p m).payload = p := by
  have hwritten := Memory.firstBytes_writeAll p (a := 0) (by rwa [Nat.zero_add]) hbuf
  rw [Nat.zero_add, Memory.firstBytes_zero, List.nil_append] at hwritten
  rw [Rx.payload, Rx.atChecksum, rxBeforeChecksum, expected_toNat hp, hwritten]

theorem Rx.atChecksum_pktlen {p : List Byte} (hp : p.length ≤ 255) (r : Rx) (t : FrameType) (o : ObjId) (i : InstId)
    (m : ObjectMeta) : ((r.atChecksum t o i p m).pktlen + 1).toNat = (r.atChecksum t o i p m).size.toNat + 1 := by
  have hcount : (BitVec.ofNat 9 (10 + p.length)).toNat = 10 + p.length := by
    rw [BitVec.toNat_ofNat]
    exact Nat.mod_eq_of_lt (by omega)
  have hsucc : (BitVec.ofNat 9 (10 + p.length) + 1).toNat = (BitVec.ofNat 9 (10 + p.length)).toNat + 1 :=
    BitVec.toNat_add_of_lt (show _ + 1 < 2 ^ 9 by omega)
  exact hsucc.trans (congrArg (· + 1) (hcount.trans (lengthField_toNat hp).symm))

/-- The bytes of an expected frame (R111) are one step of its instruction, at a state that differs from the one before the
frame in the receive registers, the counted bytes and the outcomes of the bytes before the last. -/
theorem feedAll_frameBytes {s : State} (h : s.rx.state = .sync ∨ s.rx.state = .complete ∨ s.rx.state = .error)
    (hbuf : s.rx.buf.wf = true) {t : FrameType} {o : ObjId} {p : List Byte} (hp : p.length ≤ 255)
    (hexp : s.env.catalog.expects t o p.length) (i : InstId) :
    ∃ u, feedAll (frameBytes t o i p) s = exec (frameInstr t o i p) u ∧ u.rx.state = .complete ∧ u.txn = s.txn ∧
      u.env = s.env ∧ u.params = s.params ∧
      u.out = s.out ++ List.replicate (10 + p.length) (.outcome .awaitingMore) := by
  obtain ⟨m, hm, he⟩ := Catalog.expects_iff.1 hexp
  have hbody := collects_body h hm he hp i
  have hcount : (frameBody t o i p).length = 10 + p.length := List.length_append
  have hfeed : feedAll (frameBytes t o i p) s =
      exec (.feedByte (crc8 (frameBody t o i p))) (s.awaitingMany (10 + p.length) (s.rx.atChecksum t o i p m)) := by
    rw [frameBytes_eq_body_append_crc8, feedAll_append hbody, feedAll_singleton, hcount]
  have hlast := exec_feedByte_checksum (s := s.awaitingMany (10 + p.length) (s.rx.atChecksum t o i p m)) rfl
    (Rx.atChecksum_pktlen hp s.rx t o i m) (FrameType.ofByte_byte t) (Rx.atChecksum_payload hbuf hp t o i m)
    hexp.carriesPayload_or_nil
  rw [State.awaitingMany_rx, Rx.atChecksum_crc] at hlast
  exact ⟨_, hfeed.trans hlast, rfl, rfl, rfl, rfl, rfl⟩

/-- Settles O22: the frame is one step of its instruction, which is dispatch and then the outcome; dispatch puts out no
outcome of its own. -/
theorem builtFrameIsReceived : Obligations.BuiltFrameIsReceived := by
  intro t o i p s hs hbuf hp hexp
  obtain ⟨u, hfeed, hstate, htxn, henv, hparams, hout⟩ := feedAll_frameBytes hs hbuf hp hexp i
  have hexec := exec_frameInstr hexp.carriesPayload_or_nil o i u
  obtain ⟨evs, hevs, hquiet, -⟩ := (dispatch_effect t o i p u).out
  refine ⟨u, _, evs, (dispatch t o i p u).2, hfeed.trans hexec, hexec, hstate, htxn, henv, hparams, hout, ?_, hquiet⟩
  rw [finishFrame_out, hevs]

end Sys2Proof.Machine
end

section
/-! The transaction table as a map (R152, R153): its open and its close, each put together from the laws of the table. -/

namespace Sys2Proof.Machine

/-- Settles O25: opening is the table's insertion at the exact key, and no other field of the state is written. Only the
canonical form and the count of entries need rising keys. -/
theorem txnOpenOverwrites : Obligations.TxnOpenOverwrites := by
  intro o i r s hwf
  rw [openTxn_txn]
  have hother : ∀ o' i', (o', i') ≠ (o, i) → (s.txn.insert o i r).get o' i' = s.txn.get o' i' :=
    fun _ _ hne => TxnTable.get_insert_other hne r s.txn
  exact ⟨TxnTable.get_insert_same o i r s.txn, hother, TxnTable.insert_wf hwf, TxnTable.insert_length hwf, rfl⟩

/-- Settles O26: removing one entry makes the key absent because, the keys rising, no later entry holds it. -/
theorem txnCloseRemoves : Obligations.TxnCloseRemoves := by
  intro k t hwf
  have hother : ∀ o i, (o, i) ≠ k → (t.close k).get o i = t.get o i :=
    fun _ _ hne => TxnTable.get_close_other hne t
  exact ⟨TxnTable.get_close_same k hwf, hother, TxnTable.close_length, TxnTable.close_absent, TxnTable.close_wf hwf⟩

end Sys2Proof.Machine
end

section
/-! SUPPORT. The normalization (R191): its four cases, and that both sends read the `inst` and `all` operands through it
alone. -/

namespace Sys2Proof.Machine

/-! The cases of `NORMALIZE`. -/

section
variable {c : Catalog} {o : ObjId} {m : ObjectMeta}

theorem normalize_unknown (h : c.lookup o = none) (i : InstId) (all : Bool) : normalize c o i all = none := by
  simp [normalize, h]

theorem normalize_one (h : c.lookup o = some m) (i : InstId) : normalize c o i false = some (i, false) := by
  simp [normalize, h]

theorem normalize_all_single (h : c.lookup o = some m) (hm : m.singleInstance = true) (i : InstId) :
    normalize c o i true = some (0, false) := by
  simp [normalize, h, hm]

theorem normalize_all_multi (h : c.lookup o = some m) (hm : m.singleInstance = false) (i : InstId) :
    normalize c o i true = some (Config.allInstances, true) := by
  simp [normalize, h, hm]

end

/-- With `all` the `inst` operand is ignored (R86): no branch but that of `all = 0` returns it. -/
theorem normalize_all_inst (c : Catalog) (o : ObjId) (i i' : InstId) : normalize c o i true = normalize c o i' true := rfl

/-! Operands that are normalized alike give the same send. -/

theorem exec_sendObject (o : ObjId) (i : InstId) (acked all : Bool) (s : State) :
    exec (.sendObject o i acked all) s = .next (returnSend (sendObject o i acked all s)) := rfl

theorem exec_sendRequest (o : ObjId) (i : InstId) (all : Bool) (s : State) :
    exec (.sendRequest o i all) s = .next (returnSend (sendRequest o i all s)) := rfl

section
variable {o : ObjId} {i i' : InstId} {all all' : Bool} {s : State}
  (h : normalize s.env.catalog o i all = normalize s.env.catalog o i' all')
include h

theorem exec_sendObject_congr (acked : Bool) :
    exec (.sendObject o i acked all) s = exec (.sendObject o i' acked all') s := by
  have hsend : sendObject o i acked all s = sendObject o i' acked all' s := by
    rw [sendObject, h, sendObject]
  rw [exec_sendObject, hsend, exec_sendObject]

theorem exec_sendRequest_congr : exec (.sendRequest o i all) s = exec (.sendRequest o i' all') s := by
  have hsend : sendRequest o i all s = sendRequest o i' all' s := by
    rw [sendRequest, h, sendRequest]
  rw [exec_sendRequest, hsend, exec_sendRequest]

end

/-- Settles O46: the equalities of sends are equalities of normalized operands. -/
theorem singleInstanceNormalized : Obligations.SingleInstanceNormalized := by
  refine ⟨fun c o i all => ⟨fun h => normalize_unknown h i all, fun m h => ⟨?_, ?_, ?_⟩⟩, ?_, ?_⟩
  · rintro rfl hm
    exact normalize_all_single h hm i
  · rintro rfl hm
    exact normalize_all_multi h hm i
  · rintro rfl
    exact normalize_one h i
  · intro o i acked m s h hm
    have hn : normalize s.env.catalog o i true = normalize s.env.catalog o 0 false :=
      (normalize_all_single h hm i).trans (normalize_one h 0).symm
    exact ⟨exec_sendObject_congr hn acked, exec_sendRequest_congr hn⟩
  · intro o i i' acked s
    have hn := normalize_all_inst s.env.catalog o i i'
    exact ⟨exec_sendObject_congr hn acked, exec_sendRequest_congr hn⟩

end Sys2Proof.Machine
end

section
/-! SUPPORT. Everything a `FEED_BYTE` that answers a next state does (R120, R136), and how it counts (R211). -/

namespace Sys2Proof.Machine

/-- `FEED_BYTE` is the prologue and then the rule of the state (R120). -/
theorem exec_feedByte (b : Byte) (s : State) : exec (.feedByte b) s = feedInState b (beginByte s) := rfl

/-- After the prologue, either no frame is returned, or one was completed, which wrote receive registers only, and is
dispatched (R132, R136). -/
theorem exec_feedByte_cases {b : Byte} {s t : State} (h : exec (.feedByte b) s = .next t) :
    Unfinished (beginByte s) t ∨ ∃ r ty o i p,
      t = finishFrame ty o i p (dispatch ty o i p { beginByte s with rx := r }) := by
  rw [exec_feedByte] at h
  obtain ⟨-, -, hfault⟩ | ⟨u, hnext, hun⟩ | ⟨-, -, -, hcomplete⟩ := feedInState_cases b (beginByte s)
  · rw [hfault] at h
    cases h
  · rw [hnext] at h
    cases h
    exact .inl hun
  · rw [hcomplete] at h
    obtain ⟨-, hfault⟩ | ⟨ty, -, hnext⟩ := completeFrame_cases
      { beginByte s with rx := { (beginByte s).rx with pktlen := (beginByte s).rx.pktlen + 1, state := .complete } }
    · rw [hfault] at h
      cases h
    · rw [hnext] at h
      cases h
      exact .inr ⟨_, ty, _, _, _, rfl⟩

/-- Settles O21: a byte that completes no frame counts one error exactly when it is discarded; a completed frame counts by
its dispatch status, since dispatch itself writes no receive counter and puts out no outcome. -/
theorem feedByteCounts : Obligations.FeedByteCounts := by
  intro b s t h
  obtain ⟨-, -, -, -, ⟨hstats, hout⟩ | ⟨e, hstats, hout⟩⟩ | ⟨r, ty, o, i, p, rfl⟩ := exec_feedByte_cases h
  · exact ⟨by rw [hstats]; rfl, [], .awaitingMore, by simpa using hout, by simp, by simp [hstats]⟩
  · exact ⟨by rw [hstats]; rfl, [.raised e], .discarded, by simpa using hout, by simp, by simp [hstats]⟩
  · have hd := dispatch_effect ty o i p { beginByte s with rx := r }
    obtain ⟨evs, hevs, hquiet, -⟩ := hd.out
    generalize dispatch ty o i p { beginByte s with rx := r } = d at hd hevs ⊢
    obtain ⟨u, ok⟩ := d
    have hparams : u.params = s.params := hd.grows.1
    have hbytes : u.stats.rxBytes = satInc s.params.statW s.stats.rxBytes 1 := hd.rxBytes
    have hobjects : u.stats.rxObjects = s.stats.rxObjects := hd.rxObjects
    have herrors : u.stats.rxErrors = s.stats.rxErrors := hd.rxErrors
    refine ⟨?_, evs, .framedOk ty o i p ok, by rw [finishFrame_out, hevs, beginByte_out], hquiet, ?_⟩
    · cases ok <;> simp [finishFrame_stats, hbytes]
    · cases ok <;> simp [finishFrame_stats, hparams, hobjects, herrors]

end Sys2Proof.Machine
end

section
/-! SUPPORT. The counters over all instructions (R210 to R214): they stay in their width, and `STATS_RESET` alone lowers
them. -/

namespace Sys2Proof.Machine

/-! The two operations on the counters. -/

theorem exec_statsReset (s : State) : exec .statsReset s = .next { s with stats := Stats.zero } := rfl

theorem exec_statsRead (s : State) : exec .statsRead s = .next (emit (.stats s.stats) s) := rfl

/-- A value that fits the width is reached without saturation. -/
theorem satInc_of_within {w : Config.Limit} {c n : Nat} (h : withinWidth w (c + n) = true) : satInc w c n = c + n := by
  cases w with
  | unbounded => rfl
  | finite k => exact min_eq_left (by simpa [withinWidth] using h)

theorem withinWidth_mono {w : Config.Limit} {m n : Nat} (hle : m ≤ n) (h : withinWidth w n = true) :
    withinWidth w m = true := by
  cases w with
  | unbounded => rfl
  | finite k =>
    simp only [withinWidth, decide_eq_true_eq] at h ⊢
    exact hle.trans h

/-- Increments by one count, up to the width (R212). -/
theorem iterate_satInc_zero {w : Config.Limit} {n : Nat} (h : withinWidth w n = true) :
    (fun c => satInc w c 1)^[n] 0 = n := by
  induction n with
  | zero => rfl
  | succ n ih =>
    have hn := ih (withinWidth_mono n.le_succ h)
    rw [Function.iterate_succ_apply', hn, satInc_of_within h]

/-- Settles O47. -/
theorem statsResetResult : Obligations.StatsResetResult := ⟨exec_statsReset, fun _ _ => iterate_satInc_zero⟩

/-- Settles O48. -/
theorem statsReadResult : Obligations.StatsReadResult := exec_statsRead

/-! Every other instruction keeps the counters in their width and lowers none. -/

theorem Unfinished.grows {s t : State} (h : Unfinished s t) : Grows s t := by
  obtain ⟨-, hparams, -, -, ⟨hstats, -⟩ | ⟨e, hstats, -⟩⟩ := h
  · exact Grows.of_eq hparams hstats
  · exact (Grows.countRxError s).trans (Grows.of_eq hparams hstats)

theorem finishFrame_grows (t : FrameType) (o : ObjId) (i : InstId) (p : List Byte) (r : State × Bool) :
    Grows r.1 (finishFrame t o i p r) := by
  obtain ⟨s, ok⟩ := r
  cases ok with
  | false => exact (Grows.countRxError s).trans (Grows.of_eq rfl rfl)
  | true => exact (Grows.countRxObject s).trans (Grows.of_eq rfl rfl)

/-- A frame row, dispatched and reported (R136, R170). -/
theorem finishFrame_dispatch_grows (t : FrameType) (o : ObjId) (i : InstId) (p : List Byte) (s : State) :
    Grows s (finishFrame t o i p (dispatch t o i p s)) :=
  (dispatch_effect t o i p s).grows.trans (finishFrame_grows t o i p _)

theorem exec_feedByte_grows {b : Byte} {s t : State} (h : exec (.feedByte b) s = .next t) : Grows s t := by
  have hbegin : Grows s (beginByte s) := (Grows.countRxByte s).trans (Grows.of_eq rfl rfl)
  obtain hun | ⟨r, ty, o, i, p, rfl⟩ := exec_feedByte_cases h
  · exact hbegin.trans hun.grows
  · have hrx : Grows (beginByte s) { beginByte s with rx := r } := Grows.of_eq rfl rfl
    exact (hbegin.trans hrx).trans (finishFrame_dispatch_grows ty o i p _)

theorem returnSend_grows {s : State} {r : State × SendResult} (h : Grows s r.1) : Grows s (returnSend r) :=
  h.trans (Grows.of_eq rfl rfl)

theorem openTxn_grows (o : ObjId) (i : InstId) (r : Resp) (s : State) : Grows s (openTxn o i r s) := Grows.of_eq rfl rfl

theorem sendObject_grows (o : ObjId) (i : InstId) (acked all : Bool) (s : State) :
    Grows s (sendObject o i acked all s).1 := by
  obtain ⟨-, h⟩ | ⟨i', all', -, ⟨-, -, h⟩ | ⟨-, s', htx, ⟨e, h⟩ | h⟩⟩ := sendObject_cases o i acked all s <;> rw [h]
  · exact Grows.raiseTx _ s
  · exact Grows.refl s
  · exact htx.grows
  · cases acked with
    | false => exact htx.grows
    | true => exact htx.grows.trans (openTxn_grows o i' .ack s')

theorem sendRequest_grows (o : ObjId) (i : InstId) (all : Bool) (s : State) : Grows s (sendRequest o i all s).1 := by
  obtain ⟨-, h⟩ | ⟨i', all', -, ⟨-, h⟩ | ⟨-, s', htx, ⟨e, h⟩ | h⟩⟩ := sendRequest_cases o i all s <;> rw [h]
  · exact Grows.raiseTx _ s
  · exact Grows.refl s
  · exact htx.grows
  · exact htx.grows.trans (openTxn_grows o i' .obj s')

/-- Everything `CANCEL_TRANSACTION` can do (R157). -/
theorem exec_cancelTransaction_cases (o : ObjId) (i : InstId) (s : State) :
    (s.txn.find o i = none ∧ exec (.cancelTransaction o i) s = .next (emit (.result (.found false)) s)) ∨
    ∃ k, s.txn.find o i = some k ∧
      exec (.cancelTransaction o i) s = .next (emit (.result (.found true)) (closeFailure k s)) := by
  rw [exec, execCancelTransaction]
  cases s.txn.find o i with
  | none => exact .inl ⟨rfl, rfl⟩
  | some k => exact .inr ⟨k, rfl, rfl⟩

theorem exec_grows {i : Instr} {s t : State} (hi : i ≠ .statsReset) (h : exec i s = .next t) : Grows s t := by
  cases i with
  | obj o n p => cases h; exact finishFrame_dispatch_grows .obj o n p s
  | objReq o n => cases h; exact finishFrame_dispatch_grows .objReq o n [] s
  | objAck o n p => cases h; exact finishFrame_dispatch_grows .objAck o n p s
  | ack o n => cases h; exact finishFrame_dispatch_grows .ack o n [] s
  | nack o n => cases h; exact finishFrame_dispatch_grows .nack o n [] s
  | crc8Update c b => cases h; exact Grows.of_eq rfl rfl
  | crc8UpdateMany c data => cases h; exact Grows.of_eq rfl rfl
  | buildFrame ty o n data => cases h; exact Grows.of_eq rfl rfl
  | feedByte b => exact exec_feedByte_grows h
  | sendObject o n acked all => cases h; exact returnSend_grows (sendObject_grows o n acked all s)
  | sendRequest o n all => cases h; exact returnSend_grows (sendRequest_grows o n all s)
  | cancelTransaction o n =>
    obtain ⟨-, hx⟩ | ⟨k, -, hx⟩ := exec_cancelTransaction_cases o n s <;> rw [hx] at h <;> cases h
    · exact Grows.of_eq rfl rfl
    · exact Grows.of_eq rfl rfl
  | statsReset => exact absurd rfl hi
  | statsRead => cases h; exact Grows.of_eq rfl rfl

/-- Settles O49: every instruction but `STATS_RESET` by its effect on the counters, and `STATS_RESET` leaves zeros. -/
theorem countersNeverDecrease : Obligations.CountersNeverDecrease := by
  refine ⟨fun _ _ => rfl, fun _ _ _ => rfl, fun i s t hs h => ?_⟩
  by_cases hi : i = .statsReset
  · subst hi
    rw [exec_statsReset] at h
    cases h
    exact ⟨Stats.zero_within _, fun hne => absurd rfl hne⟩
  · obtain ⟨-, hcounters⟩ := exec_grows hi h
    obtain ⟨hwithin, hle⟩ := hcounters hs
    exact ⟨hwithin, fun _ => hle⟩

end Sys2Proof.Machine
end

section
/-! SUPPORT. The counters are written and not read (R210): every operation, run from a state with other counters, does what
it does from the state itself but for the counters it leaves. Said as an equation per operation, so that the proofs follow
the operations' own definitions. -/

namespace Sys2Proof.Machine

/-- The state with other counters. -/
def State.withStats (s : State) (st : Stats) : State := { s with stats := st }

@[simp] theorem State.withStats_rx (s : State) (st : Stats) : (s.withStats st).rx = s.rx := rfl
@[simp] theorem State.withStats_txn (s : State) (st : Stats) : (s.withStats st).txn = s.txn := rfl
@[simp] theorem State.withStats_params (s : State) (st : Stats) : (s.withStats st).params = s.params := rfl
@[simp] theorem State.withStats_env (s : State) (st : Stats) : (s.withStats st).env = s.env := rfl

/-- A state and a value beside it, the state with other counters. -/
def withStatsFst {α : Type} (r : State × α) (st : Stats) : State × α := (r.1.withStats st, r.2)

section
variable (s : State) (st : Stats)

/-! Transmission. -/

theorem transmitSingle_withStats (t : FrameType) (o : ObjId) (i : InstId) :
    ∃ st', transmitSingle t o i (s.withStats st) = withStatsFst (transmitSingle t o i s) st' := by
  unfold transmitSingle
  rw [State.withStats_env]
  cases frameFor t o i s.env.catalog with
  | error e => exact ⟨_, rfl⟩
  | ok f => cases s.env.sink.answer with
    | false => exact ⟨_, rfl⟩
    | true => exact ⟨_, rfl⟩

theorem sendEach_withStats (t : FrameType) (o : ObjId) (ids : List InstId) :
    ∃ st', sendEach t o ids (s.withStats st) = withStatsFst (sendEach t o ids s) st' := by
  induction ids generalizing s st with
  | nil => exact ⟨st, rfl⟩
  | cons j ids ih =>
    obtain ⟨st1, h1⟩ := transmitSingle_withStats s st t o j
    rw [sendEach, h1, sendEach]
    obtain ⟨u, res⟩ := transmitSingle t o j s
    cases res with
    | ok => exact ih u st1
    | fail e => exact ⟨st1, rfl⟩

/-- The transmission inside `SEND_OBJECT`: one instance or all of them (R192). -/
theorem sendAll_or_transmitSingle_withStats (t : FrameType) (o : ObjId) (i : InstId) (all : Bool) :
    ∃ st', (if all then sendAll t o (s.withStats st) else transmitSingle t o i (s.withStats st)) =
      withStatsFst (if all then sendAll t o s else transmitSingle t o i s) st' := by
  cases all with
  | false => exact transmitSingle_withStats s st t o i
  | true => exact sendEach_withStats s st t o (s.env.catalog.instanceIds o)

theorem sendObject_withStats (o : ObjId) (i : InstId) (acked all : Bool) :
    ∃ st', sendObject o i acked all (s.withStats st) = withStatsFst (sendObject o i acked all s) st' := by
  unfold sendObject
  rw [State.withStats_env, State.withStats_txn, State.withStats_params]
  cases normalize s.env.catalog o i all with
  | none => exact ⟨_, rfl⟩
  | some k =>
    obtain ⟨i', all'⟩ := k
    dsimp only
    split
    · exact ⟨st, rfl⟩
    · obtain ⟨st', h⟩ := sendAll_or_transmitSingle_withStats s st (if acked then .objAck else .obj) o i' all'
      rw [h]
      obtain ⟨u, res⟩ := if all' then sendAll (if acked then .objAck else .obj) o s
        else transmitSingle (if acked then .objAck else .obj) o i' s
      cases res with
      | fail e => exact ⟨st', rfl⟩
      | ok => cases acked with
        | false => exact ⟨st', rfl⟩
        | true => exact ⟨st', rfl⟩

theorem sendRequest_withStats (o : ObjId) (i : InstId) (all : Bool) :
    ∃ st', sendRequest o i all (s.withStats st) = withStatsFst (sendRequest o i all s) st' := by
  unfold sendRequest
  rw [State.withStats_env, State.withStats_txn, State.withStats_params]
  cases normalize s.env.catalog o i all with
  | none => exact ⟨_, rfl⟩
  | some k =>
    obtain ⟨i', all'⟩ := k
    dsimp only
    split
    · exact ⟨st, rfl⟩
    · obtain ⟨st', h⟩ := transmitSingle_withStats s st .objReq o i'
      rw [h]
      obtain ⟨u, res⟩ := transmitSingle .objReq o i' s
      cases res with
      | fail e => exact ⟨st', rfl⟩
      | ok => exact ⟨st', rfl⟩

/-! Dispatch. What writes no counter commutes with the change of counters. -/

theorem createInstance_withStats (o : ObjId) (i : InstId) :
    createInstance o i (s.withStats st) = withStatsFst (createInstance o i s) st := rfl

theorem updateObject_withStats (o : ObjId) (i : InstId) (p : List Byte) :
    updateObject o i p (s.withStats st) = withStatsFst (updateObject o i p s) st := by
  unfold updateObject
  rw [State.withStats_env]
  cases s.env.catalog.lookupInstance o i with
  | none =>
    rw [createInstance_withStats]
    obtain ⟨u, x⟩ := createInstance o i s
    dsimp only [withStatsFst]
    split <;> rfl
  | some x =>
    dsimp only
    split <;> rfl

theorem replyReceived_withStats (kind : Resp) (o : ObjId) (i : InstId) :
    replyReceived kind o i (s.withStats st) = (replyReceived kind o i s).withStats st := by
  unfold replyReceived
  rw [State.withStats_txn]
  cases s.txn.find o i with
  | none => rfl
  | some k =>
    dsimp only
    split <;> rfl

theorem dispatchObj_withStats (o : ObjId) (i : InstId) (p : List Byte) :
    dispatchObj o i p (s.withStats st) = withStatsFst (dispatchObj o i p s) st := by
  unfold dispatchObj
  split
  · rfl
  · rw [updateObject_withStats]
    obtain ⟨u, ok⟩ := updateObject o i p s
    cases ok with
    | false => rfl
    | true => exact congrArg (·, true) (replyReceived_withStats u st .obj o i)

theorem dispatchObjAck_withStats (o : ObjId) (i : InstId) (p : List Byte) :
    ∃ st', dispatchObjAck o i p (s.withStats st) = withStatsFst (dispatchObjAck o i p s) st' := by
  unfold dispatchObjAck
  split
  · exact ⟨st, rfl⟩
  · rw [updateObject_withStats]
    obtain ⟨u, ok⟩ := updateObject o i p s
    obtain ⟨st', h⟩ := transmitSingle_withStats u st .ack o i
    exact ⟨st', congrArg (fun r => (r.1, ok)) h⟩

theorem dispatchObjReq_withStats (o : ObjId) (i : InstId) :
    ∃ st', dispatchObjReq o i (s.withStats st) = withStatsFst (dispatchObjReq o i s) st' := by
  unfold dispatchObjReq
  rw [State.withStats_env]
  split
  · obtain ⟨st1, h1⟩ := sendObject_withStats s st o (requestTarget i) false (i = Config.allInstances)
    rw [h1]
    obtain ⟨u, res⟩ := sendObject o (requestTarget i) false (i = Config.allInstances) s
    cases res with
    | ok => exact ⟨st1, rfl⟩
    | fail e =>
      obtain ⟨st', h⟩ := transmitSingle_withStats u st1 .nack o i
      exact ⟨st', congrArg (fun r => (r.1, true)) h⟩
  · obtain ⟨st', h⟩ := transmitSingle_withStats s st .nack o i
    exact ⟨st', congrArg (fun r => (r.1, false)) h⟩

theorem dispatchAck_withStats (o : ObjId) (i : InstId) :
    dispatchAck o i (s.withStats st) = withStatsFst (dispatchAck o i s) st := by
  unfold dispatchAck
  split
  · rfl
  · exact congrArg (·, true) (replyReceived_withStats s st .ack o i)

theorem dispatchNack_withStats (o : ObjId) (i : InstId) :
    dispatchNack o i (s.withStats st) = withStatsFst (dispatchNack o i s) st := by
  unfold dispatchNack
  rw [State.withStats_txn]
  cases s.txn.find o i <;> rfl

theorem dispatch_withStats (t : FrameType) (o : ObjId) (i : InstId) (p : List Byte) :
    ∃ st', dispatch t o i p (s.withStats st) = withStatsFst (dispatch t o i p s) st' := by
  cases t with
  | obj => exact ⟨st, dispatchObj_withStats s st o i p⟩
  | objReq => exact dispatchObjReq_withStats s st o i
  | objAck => exact dispatchObjAck_withStats s st o i p
  | ack => exact ⟨st, dispatchAck_withStats s st o i⟩
  | nack => exact ⟨st, dispatchNack_withStats s st o i⟩

/-! The receive machine: the rule of each state. -/

theorem rxSync_withStats (b : Byte) : ∃ st', rxSync b (s.withStats st) = (rxSync b s).withStats st' := by
  unfold rxSync
  split <;> exact ⟨_, rfl⟩

theorem rxType_withStats (b : Byte) : ∃ st', rxType b (s.withStats st) = (rxType b s).withStats st' := by
  unfold rxType
  split <;> exact ⟨_, rfl⟩

theorem rxSize_withStats (b : Byte) : ∃ st', rxSize b (s.withStats st) = (rxSize b s).withStats st' := by
  unfold rxSize
  rw [State.withStats_rx]
  split
  · exact ⟨st, rfl⟩
  · dsimp only
    split <;> exact ⟨_, rfl⟩

theorem rxObjectId_withStats (b : Byte) : ∃ st', rxObjectId b (s.withStats st) = (rxObjectId b s).withStats st' := by
  unfold rxObjectId
  rw [State.withStats_rx]
  split <;> exact ⟨st, rfl⟩

theorem rxDiscover_withStats : ∃ st', rxDiscover (s.withStats st) = (rxDiscover s).withStats st' := by
  unfold rxDiscover
  rw [State.withStats_rx, State.withStats_env]
  cases s.env.catalog.lookup s.rx.objid with
  | none => exact ⟨_, rfl⟩
  | some m =>
    dsimp only
    split
    · exact ⟨_, rfl⟩
    · split <;> exact ⟨_, rfl⟩

theorem rxInstanceId_withStats (b : Byte) :
    ∃ st', rxInstanceId b (s.withStats st) = (rxInstanceId b s).withStats st' := by
  unfold rxInstanceId
  rw [State.withStats_rx]
  split
  · exact ⟨st, rfl⟩
  · exact rxDiscover_withStats { s with rx := { s.rx.fold b with instid := putHigh s.rx.instid b, count := 0 } } st

theorem rxData_withStats (b : Byte) : ∃ st', rxData b (s.withStats st) = (rxData b s).withStats st' := by
  unfold rxData
  rw [State.withStats_rx]
  dsimp only
  split <;> exact ⟨st, rfl⟩

theorem rxChecksum_withStats (b : Byte) : ∃ st', rxChecksum b (s.withStats st) = (rxChecksum b s).withStats st' := by
  unfold rxChecksum
  rw [State.withStats_rx]
  dsimp only
  split
  · exact ⟨_, rfl⟩
  · split <;> exact ⟨_, rfl⟩

end

/-! The outcomes of a step. -/

theorem finishFrame_withStatsFst (t : FrameType) (o : ObjId) (i : InstId) (p : List Byte) (r : State × Bool) (st : Stats) :
    ∃ st', finishFrame t o i p (withStatsFst r st) = (finishFrame t o i p r).withStats st' := by
  obtain ⟨s, ok⟩ := r
  cases ok with
  | false => exact ⟨_, rfl⟩
  | true => exact ⟨_, rfl⟩

theorem returnSend_withStatsFst (r : State × SendResult) (st : Stats) :
    returnSend (withStatsFst r st) = (returnSend r).withStats st := rfl

/-- Where the outcome `x` is a next state, `y` is the same next state but for the counters. -/
def NextButStats (x y : Host.Outcome State Fault Refusal) : Prop :=
  ∀ t, x = .next t → ∃ st, y = .next (t.withStats st)

theorem NextButStats.of_eq {t u : State} {st : Stats} (h : u = t.withStats st) : NextButStats (.next t) (.next u) := by
  rintro _ ⟨⟩
  exact ⟨st, congrArg _ h⟩

theorem NextButStats.returnOutcome {t u : State} (h : ∃ st, u = t.withStats st) :
    NextButStats (.next (returnOutcome t)) (.next (returnOutcome u)) := by
  obtain ⟨st, rfl⟩ := h
  exact .of_eq (st := st) rfl

section
variable (s : State) (st : Stats)

/-- A frame row, dispatched and reported (R136, R170). -/
theorem finishFrame_dispatch_withStats (t : FrameType) (o : ObjId) (i : InstId) (p : List Byte) :
    NextButStats (.next (finishFrame t o i p (dispatch t o i p s)))
      (.next (finishFrame t o i p (dispatch t o i p (s.withStats st)))) := by
  obtain ⟨st1, h1⟩ := dispatch_withStats s st t o i p
  obtain ⟨st2, h2⟩ := finishFrame_withStatsFst t o i p (dispatch t o i p s) st1
  exact .of_eq ((congrArg _ h1).trans h2)

theorem completeFrame_withStats : NextButStats (completeFrame s) (completeFrame (s.withStats st)) := by
  unfold completeFrame
  rw [State.withStats_rx]
  cases FrameType.ofByte s.rx.type with
  | none => rintro t ⟨⟩
  | some ty => exact finishFrame_dispatch_withStats s st ty s.rx.objid s.rx.instid s.rx.payload

theorem feedInState_withStats (b : Byte) : NextButStats (feedInState b s) (feedInState b (s.withStats st)) := by
  unfold feedInState
  rw [State.withStats_rx]
  cases s.rx.state with
  | sync => exact .returnOutcome (rxSync_withStats s st b)
  | type => exact .returnOutcome (rxType_withStats s st b)
  | size => exact .returnOutcome (rxSize_withStats s st b)
  | objectId => exact .returnOutcome (rxObjectId_withStats s st b)
  | instanceId => exact .returnOutcome (rxInstanceId_withStats s st b)
  | data =>
    dsimp only
    split
    · rintro t ⟨⟩
    · exact .returnOutcome (rxData_withStats s st b)
  | checksum =>
    obtain ⟨st', h⟩ := rxChecksum_withStats s st b
    dsimp only
    rw [h, State.withStats_rx]
    split
    · exact completeFrame_withStats (rxChecksum b s) st'
    · exact .returnOutcome ⟨st', rfl⟩
  | complete => exact .returnOutcome (rxSync_withStats s st b)
  | error => exact .returnOutcome (rxSync_withStats s st b)

theorem beginByte_withStats : ∃ st', beginByte (s.withStats st) = (beginByte s).withStats st' := ⟨_, rfl⟩

theorem exec_feedByte_withStats (b : Byte) :
    NextButStats (exec (.feedByte b) s) (exec (.feedByte b) (s.withStats st)) := by
  obtain ⟨st', h⟩ := beginByte_withStats s st
  rw [exec_feedByte, exec_feedByte, h]
  exact feedInState_withStats (beginByte s) st' b

theorem exec_cancelTransaction_withStats (o : ObjId) (i : InstId) :
    NextButStats (exec (.cancelTransaction o i) s) (exec (.cancelTransaction o i) (s.withStats st)) := by
  rw [exec, exec, execCancelTransaction, execCancelTransaction, State.withStats_txn]
  cases s.txn.find o i with
  | none => exact .of_eq (st := st) rfl
  | some k => exact .of_eq (st := st) rfl

/-- Every instruction but `STATS_READ` (R210). -/
theorem exec_withStats {i : Instr} (hi : i ≠ .statsRead) : NextButStats (exec i s) (exec i (s.withStats st)) := by
  cases i with
  | obj o n p => exact finishFrame_dispatch_withStats s st .obj o n p
  | objReq o n => exact finishFrame_dispatch_withStats s st .objReq o n []
  | objAck o n p => exact finishFrame_dispatch_withStats s st .objAck o n p
  | ack o n => exact finishFrame_dispatch_withStats s st .ack o n []
  | nack o n => exact finishFrame_dispatch_withStats s st .nack o n []
  | crc8Update c b => exact .of_eq (st := st) rfl
  | crc8UpdateMany c data => exact .of_eq (st := st) rfl
  | buildFrame ty o n data => exact .of_eq (st := st) rfl
  | feedByte b => exact exec_feedByte_withStats s st b
  | sendObject o n acked all =>
    obtain ⟨st', h⟩ := sendObject_withStats s st o n acked all
    exact .of_eq ((congrArg returnSend h).trans (returnSend_withStatsFst _ st'))
  | sendRequest o n all =>
    obtain ⟨st', h⟩ := sendRequest_withStats s st o n all
    exact .of_eq ((congrArg returnSend h).trans (returnSend_withStatsFst _ st'))
  | cancelTransaction o n => exact exec_cancelTransaction_withStats s st o n
  | statsReset => exact .of_eq (st := Stats.zero) rfl
  | statsRead => exact absurd rfl hi

end

/-- Settles O50. -/
theorem countersAreNeverRead : Obligations.CountersAreNeverRead := by
  intro i s t st hi h
  obtain ⟨st', h'⟩ := exec_withStats s st hi t h
  exact ⟨t.withStats st', h', rfl⟩

end Sys2Proof.Machine
end

section
/-! SUPPORT. The decoder: the frames it accepts, said once as an equivalence, and its host operations. Both directions of
the round trip with the encoder come from these. -/

namespace Sys2Proof.Machine

/-! The type byte. -/

theorem FrameType.byte_mem (t : FrameType) : t.byte ∈ ([0x20, 0x21, 0x22, 0x23, 0x24] : List Byte) := by
  cases t <;> decide

/-- The five type bytes, and no others, are legal (R80, R81). -/
theorem FrameType.ofByte_isSome_iff (b : Byte) :
    (FrameType.ofByte b).isSome = true ↔ b ∈ ([0x20, 0x21, 0x22, 0x23, 0x24] : List Byte) := by
  constructor
  · intro h
    obtain ⟨t, ht⟩ := Option.isSome_iff_exists.1 h
    rw [FrameType.byte_of_ofByte ht]
    exact FrameType.byte_mem t
  · simp only [List.mem_cons, List.not_mem_nil, or_false]
    rintro (rfl | rfl | rfl | rfl | rfl) <;> rfl

theorem FrameType.ofByte_eq_none {b : Byte} (h : b ∉ ([0x20, 0x21, 0x22, 0x23, 0x24] : List Byte)) :
    FrameType.ofByte b = none := by
  rwa [← FrameType.ofByte_isSome_iff, Option.not_isSome_iff_eq_none] at h

/-! Whole frames. -/

/-- A frame is accepted exactly when its type is one of the five, its length field and payload agree, only a type that
carries one has a payload, and the last byte is the checksum (R70, R74, R77, R78, R81, R82). -/
theorem decodeFrame_eq_ok_iff {ty : Byte} {len : Half} {o : ObjId} {i : InstId} {tail : List Byte} {ins : Instr} :
    decodeFrame ty len o i tail = .ok ins ↔ ∃ t p, FrameType.ofByte ty = some t ∧ p.length ≤ 255 ∧
      len.toNat = 10 + p.length ∧ (t.carriesPayload = true ∨ p = []) ∧
      tail = p ++ [crc8 (frameHeader ty len o i ++ p)] ∧ ins = frameInstr t o i p := by
  constructor
  · intro h
    unfold decodeFrame at h
    split at h
    · cases h
    · rename_i t ht
      dsimp only at h
      split_ifs at h with hrange hmax hlen hcarry hcrc
      cases h
      rw [not_not] at hlen hcrc
      have hpayload : t.carriesPayload = true ∨ tail.dropLast = [] := by
        by_contra hno
        rw [not_or, Bool.not_eq_true] at hno
        exact hcarry hno
      exact ⟨t, tail.dropLast, ht, not_lt.1 hmax, hlen, hpayload, (List.dropLast_append_getLast? _ hcrc).symm, rfl⟩
  · rintro ⟨t, p, ht, hp, hlen, hcarry, rfl, rfl⟩
    have hrange : ¬(10 + p.length < Config.sizeMin ∨ Config.sizeMax < 10 + p.length) := by
      unfold Config.sizeMin Config.sizeMax
      omega
    have hmax : ¬Config.maxPayload < p.length := not_lt.2 hp
    have hnone : ¬(t.carriesPayload = false ∧ p ≠ []) := by
      rintro ⟨hno, hne⟩
      rcases hcarry with hyes | hnil
      · exact absurd (hno.symm.trans hyes) nofun
      · exact hne hnil
    rw [decodeFrame, ht, hlen]
    dsimp only
    rw [if_neg hrange]
    simp [hmax, hnone, Config.headerLen]

/-- Bytes that begin like a frame and reach its checksum are judged by the frame's fields (R54). -/
theorem decode_syncVal {tail : List Byte} (h : tail ≠ []) (ty l0 l1 o0 o1 o2 o3 i0 i1 : Byte) :
    decode (Config.syncVal :: ty :: l0 :: l1 :: o0 :: o1 :: o2 :: o3 :: i0 :: i1 :: tail) =
      decodeFrame ty (join16 l0 l1) (join32 o0 o1 o2 o3) (join16 i0 i1) tail := by
  cases tail with
  | nil => exact absurd rfl h
  | cons c tail => rfl

/-- The bytes of a frame are read back as its instruction. -/
theorem decode_frameBytes {t : FrameType} {p : List Byte} (hp : p.length ≤ 255)
    (hcarry : t.carriesPayload = true ∨ p = []) (o : ObjId) (i : InstId) :
    decode (frameBytes t o i p) = .ok (frameInstr t o i p) := by
  have htail : p ++ [crc8 (frameBody t o i p)] ≠ [] := by simp
  refine (decode_syncVal htail _ _ _ _ _ _ _ _ _).trans ?_
  rw [join16_extractLsb', join32_extractLsb', join16_extractLsb', decodeFrame_eq_ok_iff]
  exact ⟨t, p, FrameType.ofByte_byte t, hp, lengthField_toNat hp, hcarry, rfl, rfl⟩

theorem encode_frameInstr {t : FrameType} {p : List Byte} (hcarry : t.carriesPayload = true ∨ p = []) (o : ObjId)
    (i : InstId) : encode (frameInstr t o i p) = frameBytes t o i p := by
  cases t with
  | obj => rfl
  | objAck => rfl
  | objReq | ack | nack =>
    obtain rfl : p = [] := hcarry.resolve_left Bool.false_ne_true
    rfl

theorem wellFormed_frameInstr {p : List Byte} (hp : p.length ≤ 255) (t : FrameType) (o : ObjId) (i : InstId) :
    (frameInstr t o i p).wellFormed = true := by
  cases t with
  | obj | objAck => exact decide_eq_true hp
  | objReq | ack | nack => rfl

/-- What `frameInstr` is onto: the frame rows. -/
theorem isFrame_frameInstr (t : FrameType) (o : ObjId) (i : InstId) (p : List Byte) :
    isFrame (frameInstr t o i p) = true := by
  cases t <;> rfl

/-- A frame is the encoding of what it decodes to: its length field and checksum are what the payload makes them. -/
theorem encode_of_decodeFrame {ty l0 l1 o0 o1 o2 o3 i0 i1 : Byte} {tail : List Byte} {ins : Instr}
    (h : decodeFrame ty (join16 l0 l1) (join32 o0 o1 o2 o3) (join16 i0 i1) tail = .ok ins) :
    encode ins = Config.syncVal :: ty :: l0 :: l1 :: o0 :: o1 :: o2 :: o3 :: i0 :: i1 :: tail ∧
      ins.wellFormed = true := by
  obtain ⟨t, p, ht, hp, hlen, hcarry, rfl, rfl⟩ := decodeFrame_eq_ok_iff.1 h
  refine ⟨?_, wellFormed_frameInstr hp t _ _⟩
  have hfield : lengthField p = join16 l0 l1 := BitVec.eq_of_toNat_eq ((lengthField_toNat hp).trans hlen.symm)
  rw [encode_frameInstr hcarry, frameBytes_eq_body_append_crc8, frameBody, hfield, ← FrameType.byte_of_ofByte ht]
  simp [frameHeader]

/-! Host operations (log 4). -/

theorem decode_host {op : Byte} (h : op ≠ Config.syncVal) (args : List Byte) :
    decode (op :: args) = decodeHost op args := if_neg h

/-- A flags byte without a reserved bit is made of its two flags. -/
theorem sendFlags_getLsbD : ∀ f : Byte, f &&& 0xFC = 0 → sendFlags (f.getLsbD 0) (f.getLsbD 1) = f := by decide

theorem bit_getLsbD : ∀ f : Byte, f &&& 0xFE = 0 → bit (f.getLsbD 0) = f := by decide

/-- A host operation is the encoding of what it decodes to, code by code (R85). -/
theorem encode_of_decodeHost {op : Byte} {args : List Byte} {ins : Instr} (h : decodeHost op args = .ok ins) :
    encode ins = op :: args ∧ ins.wellFormed = true := by
  unfold decodeHost at h
  split_ifs at h with h0 h1 h2 h3 h4 h5 h6 h7 h8
  · subst h0
    split at h <;> cases h
    exact ⟨rfl, rfl⟩
  · subst h1
    split at h <;> cases h
    exact ⟨rfl, rfl⟩
  · subst h2
    split at h
    · split at h <;> cases h
      rename_i ht
      simp [encode, FrameType.byte_of_ofByte ht, Instr.wellFormed]
    · cases h
  · subst h3
    split at h <;> cases h
    exact ⟨rfl, rfl⟩
  · subst h4
    split at h
    · split_ifs at h with hf
      cases h
      rw [encode, sendFlags_getLsbD _ hf, le32_join32, le16_join16]
      exact ⟨rfl, rfl⟩
    · cases h
  · subst h5
    split at h
    · split_ifs at h with hf
      cases h
      rw [encode, bit_getLsbD _ hf, le32_join32, le16_join16]
      exact ⟨rfl, rfl⟩
    · cases h
  · subst h6
    split at h <;> cases h
    simp [encode, Instr.wellFormed]
  · subst h7
    split at h <;> cases h
    exact ⟨rfl, rfl⟩
  · subst h8
    split at h <;> cases h
    exact ⟨rfl, rfl⟩

/-- Settles O1: a frame through the checks of `decodeFrame`, a host operation through its own layout. -/
theorem decodeOfEncode : Obligations.DecodeOfEncode := by
  intro ins hwf
  cases ins with
  | obj o i p => exact decode_frameBytes (t := .obj) (of_decide_eq_true hwf) (.inl rfl) o i
  | objReq o i => exact decode_frameBytes (t := .objReq) (Nat.zero_le _) (.inr rfl) o i
  | objAck o i p => exact decode_frameBytes (t := .objAck) (of_decide_eq_true hwf) (.inl rfl) o i
  | ack o i => exact decode_frameBytes (t := .ack) (Nat.zero_le _) (.inr rfl) o i
  | nack o i => exact decode_frameBytes (t := .nack) (Nat.zero_le _) (.inr rfl) o i
  | crc8Update c b => rfl
  | crc8UpdateMany c data => rfl
  | buildFrame t o i data =>
    refine (decode_host (by decide) _).trans ?_
    simp [decodeHost, le16, le32]
  | feedByte b => rfl
  | sendObject o i acked all =>
    refine (decode_host (by decide) _).trans ?_
    cases acked <;> cases all <;> simp [decodeHost, le16, le32, sendFlags, bit]
  | sendRequest o i all =>
    refine (decode_host (by decide) _).trans ?_
    cases all <;> simp [decodeHost, le16, le32, bit]
  | cancelTransaction o i =>
    refine (decode_host (by decide) _).trans ?_
    simp [decodeHost, le16, le32]
  | statsReset => rfl
  | statsRead => rfl

/-- Settles O2: the first byte tells a frame from a host operation, and each is the encoding of what it decodes to. -/
theorem encodeOfDecode : Obligations.EncodeOfDecode := by
  intro bytes ins h
  cases bytes with
  | nil => cases h
  | cons b0 rest =>
    by_cases hb : b0 = Config.syncVal
    · subst hb
      unfold decode at h
      dsimp only at h
      rw [if_pos rfl] at h
      split at h
      · exact encode_of_decodeFrame h
      · cases h
    · rw [decode_host hb] at h
      exact encode_of_decodeHost h

/-- Settles O3. -/
theorem specWordsDecode : Obligations.SpecWordsDecode := by
  unfold Obligations.SpecWordsDecode
  decide

/-- Settles O4: an illegal type byte is the first thing `decodeFrame` looks at; the codes are compared one by one. -/
theorem illegalCodesRejected : Obligations.IllegalCodesRejected := by
  refine ⟨?_, fun t => ⟨by cases t <;> decide, FrameType.byte_mem t⟩, ?_⟩
  · intro ty b2 b3 b4 b5 b6 b7 b8 b9 b10 tail hty
    refine (decode_syncVal (List.cons_ne_nil b10 tail) ty b2 b3 b4 b5 b6 b7 b8 b9).trans ?_
    rw [decodeFrame, FrameType.ofByte_eq_none hty]
  · intro op args hop hsync
    have hne (n : Byte) (hn : n.toNat < 9) : op ≠ n := by
      rintro rfl
      omega
    rw [decode_host hsync]
    unfold decodeHost
    rw [if_neg (hne 0 (by decide)), if_neg (hne 1 (by decide)),
      if_neg (hne 2 (by decide)), if_neg (hne 3 (by decide)), if_neg (hne 4 (by decide)), if_neg (hne 5 (by decide)),
      if_neg (hne 6 (by decide)), if_neg (hne 7 (by decide)), if_neg (hne 8 (by decide))]

end Sys2Proof.Machine
end

section
/-! SUPPORT. One step (R8, log 6, log 17): what each kind of arrival does, and that an instruction placed next is the one
the step runs. -/

namespace Sys2Proof.Machine

/-! The head of the inbox. -/

section
variable {s : State} {rest : List Arrival}

theorem step_idle (h : s.inbox = []) : step s = .next s := by
  rw [step, fetch, h]

theorem step_reset (h : s.inbox = .reset :: rest) : step s = .next { resetBlock s with inbox := rest } := by
  rw [step, fetch, h]

theorem step_environment {e : Env} (h : s.inbox = .environment e :: rest) :
    step s = .next { s with env := e, inbox := rest } := by
  rw [step, fetch, h]

theorem step_undecodable {bytes : List Byte} {e : DecodeError} (h : s.inbox = .op bytes :: rest)
    (hd : decode bytes = .error e) : step s = .refused (.undecodable e) := by
  simp [step, fetch, h, hd]

theorem step_frame {bytes : List Byte} {i : Instr} (h : s.inbox = .op bytes :: rest) (hd : decode bytes = .ok i)
    (hi : isFrame i = true) : step s = .refused .frameAsOperation := by
  simp [step, fetch, h, hd, hi]

theorem step_op {bytes : List Byte} {i : Instr} (h : s.inbox = .op bytes :: rest) (hd : decode bytes = .ok i)
    (hi : isFrame i = false) : step s = exec i { s with inbox := rest } := by
  simp [step, fetch, h, hd, hi]

end

/-- Settles O52. -/
theorem stepRunsDecodedOperation : Obligations.StepRunsDecodedOperation :=
  fun _ _ _ _ h hd hi => step_op h hd hi

/-- Settles O53. -/
theorem stepOnOtherArrivals : Obligations.StepOnOtherArrivals :=
  fun _ _ => ⟨step_idle, step_reset, fun _ => step_environment, fun _ _ => step_undecodable, fun _ _ => step_frame⟩

/-! An instruction placed next. -/

/-- The bytes of a host operation do not begin with the sync byte: what does is a frame, or nothing. -/
theorem ne_syncVal_of_decode {b0 : Byte} {rest : List Byte} {i : Instr} (hd : decode (b0 :: rest) = .ok i)
    (hi : isFrame i = false) : b0 ≠ Config.syncVal := by
  rintro rfl
  unfold decode at hd
  dsimp only at hd
  rw [if_pos rfl] at hd
  split at hd
  · obtain ⟨t, p, -, -, -, -, -, rfl⟩ := decodeFrame_eq_ok_iff.1 hd
    rw [isFrame_frameInstr] at hi
    cases hi
  · cases hd

/-- Bytes of a host operation become the next arrival. -/
theorem placeNext_host {bytes : List Byte} {i : Instr} (hd : decode bytes = .ok i) (hi : isFrame i = false) (s : State) :
    placeNext bytes s = { s with inbox := .op bytes :: s.inbox } := by
  unfold placeNext
  split
  · rw [if_neg (ne_syncVal_of_decode hd hi)]
  · rfl

theorem step_placeNext_host {bytes : List Byte} {i : Instr} (hd : decode bytes = .ok i) (hi : isFrame i = false)
    (s : State) : step (placeNext bytes s) = exec i s := by
  rw [placeNext_host hd hi]
  exact step_op rfl hd hi

/-- Bytes that begin like a frame and reach its checksum stand in the receive registers but for the last, which becomes the
next arrival. -/
theorem placeNext_syncVal {tail : List Byte} (h : tail ≠ []) (ty l0 l1 o0 o1 o2 o3 i0 i1 : Byte) (s : State) :
    placeNext (Config.syncVal :: ty :: l0 :: l1 :: o0 :: o1 :: o2 :: o3 :: i0 :: i1 :: tail) s = { s with
      rx := rxBeforeChecksum s.rx ty (join16 l0 l1) (join32 o0 o1 o2 o3) (join16 i0 i1) tail.dropLast
      inbox := .op (encode (.feedByte (tail.getLastD 0))) :: s.inbox } := by
  cases tail with
  | nil => exact absurd rfl h
  | cons c tail => rfl

theorem placeNext_frameBytes (t : FrameType) (o : ObjId) (i : InstId) (p : List Byte) (s : State) :
    placeNext (frameBytes t o i p) s = { s with
      rx := rxBeforeChecksum s.rx t.byte (lengthField p) o i p
      inbox := .op (encode (.feedByte (crc8 (frameBody t o i p)))) :: s.inbox } := by
  have htail : p ++ [crc8 (frameBody t o i p)] ≠ [] := by simp
  refine (placeNext_syncVal htail _ _ _ _ _ _ _ _ _ s).trans ?_
  rw [join16_extractLsb', join32_extractLsb', join16_extractLsb', List.dropLast_concat, List.getLastD_concat]
  rfl

/-- The step that runs a placed frame without payload is that of the frame's own instruction. -/
theorem step_placeNext_frameBytes (t : FrameType) (o : ObjId) (i : InstId) (s : State) :
    ∃ u, step (placeNext (frameBytes t o i []) s) = exec (frameInstr t o i []) u ∧ u.rx.state = .complete ∧
      u.txn = s.txn ∧ u.env = s.env ∧ u.params = s.params ∧ u.inbox = s.inbox ∧ u.out = s.out := by
  have hlast := exec_feedByte_checksum (s := { s with rx := rxBeforeChecksum s.rx t.byte (lengthField []) o i [] }) rfl rfl
    (FrameType.ofByte_byte t) rfl (.inr rfl)
  rw [placeNext_frameBytes]
  exact ⟨_, (step_op rfl rfl rfl).trans hlast, rfl, rfl, rfl, rfl, rfl, rfl⟩

/-! Table words of eight bits: one byte, the rest of the instruction zero. -/

theorem decodeTableWord_eq_some_iff {n w : Nat} {i : Instr} :
    decodeTableWord n w = some i ↔ decode (tableBytes n w) = .ok i := by
  unfold decodeTableWord
  cases decode (tableBytes n w) <;> simp

/-- A word that is a type byte is a frame with zero ids and no payload; any other word has its first byte as code. -/
theorem tableBytes_eight (w : Nat) :
    (∃ t, tableBytes 8 w = frameBytes t 0 0 []) ∨
      tableBytes 8 w = completeWith (hostZero (BitVec.ofNat 8 w)) [BitVec.ofNat 8 w] := by
  have hword : wordBytes ((8 + 7) / 8) w = [BitVec.ofNat 8 w] := rfl
  rw [tableBytes, hword]
  dsimp only
  cases FrameType.ofByte (BitVec.ofNat 8 w) with
  | none => exact .inr rfl
  | some t => exact .inl ⟨t, rfl⟩

/-- A frame takes eleven bytes or more (R54). -/
theorem le_length_encode_of_isFrame {i : Instr} (h : isFrame i = true) : 11 ≤ (encode i).length := by
  have hframe (t : FrameType) (o : ObjId) (n : InstId) (p : List Byte) : 11 ≤ (frameBytes t o n p).length := by
    rw [frameBytes_length]
    exact Nat.le_add_right 11 _
  cases i with
  | obj | objReq | objAck | ack | nack => exact hframe _ _ _ _
  | crc8Update | crc8UpdateMany | buildFrame | feedByte | sendObject | sendRequest | cancelTransaction | statsReset
  | statsRead => cases h

/-- A word that is no type byte is completed to fewer. -/
theorem length_hostZero_le (op : Byte) : (completeWith (hostZero op) [op]).length ≤ 8 := by
  unfold hostZero completeWith
  split_ifs <;> simp

/-- Settles O54: a word's bytes are those of a frame without payload, or too few for a frame. -/
theorem tableWordRunsNext : Obligations.TableWordRunsNext := by
  intro w i s hword
  rw [decodeTableWord_eq_some_iff] at hword
  refine ⟨fun hi => step_placeNext_host hword hi s, fun hi => ?_⟩
  obtain ⟨t, ht⟩ | hhost := tableBytes_eight w
  · rw [ht, decode_frameBytes (Nat.zero_le _) (.inr rfl)] at hword
    cases hword
    rw [State.withFetchWord, ht]
    exact step_placeNext_frameBytes t 0 0 s
  · obtain ⟨hencode, -⟩ := encodeOfDecode _ _ hword
    have hlong := le_length_encode_of_isFrame hi
    have hshort := length_hostZero_le (BitVec.ofNat 8 w)
    rw [hencode, hhost] at hlong
    omega

end Sys2Proof.Machine
end

section
/-! SUPPORT. The algebra of the CRC (R103, R104): one turn of the loop is linear and loses nothing, so the table is linear
and a bijection, and so is the update in each operand. -/

namespace Sys2Proof.Machine

/-- R102 against R103: the printed table is the loop's. -/
theorem crcEntry_eq_crcBitSerial : ∀ i : Byte, crcEntry i = crcBitSerial i := by decide

/-- Settles O6. -/
theorem crcTableIsTheBitSerialLoop : Obligations.CrcTableIsTheBitSerialLoop :=
  ⟨crcEntry_eq_crcBitSerial, by decide, by decide⟩

/-! Linearity. -/

/-- The bit shifted out of an exclusive-or is that of the operands, and so the polynomial is added for each of them. -/
theorem crcShift_xor (a b : Byte) : crcShift (a ^^^ b) = crcShift a ^^^ crcShift b := by
  have hcancel (x y z : Byte) : (x ^^^ z) ^^^ (y ^^^ z) = x ^^^ y := by
    rw [BitVec.xor_comm y, BitVec.xor_assoc, ← BitVec.xor_assoc z z, BitVec.xor_self, BitVec.zero_xor]
  unfold crcShift
  rw [BitVec.msb_xor, BitVec.shiftLeft_xor_distrib]
  cases a.msb <;> cases b.msb
  case false.false => rfl
  case false.true => exact BitVec.xor_assoc _ _ _
  case true.false =>
    show (a <<< 1 ^^^ b <<< 1) ^^^ Config.crcPoly = (a <<< 1 ^^^ Config.crcPoly) ^^^ b <<< 1
    rw [BitVec.xor_assoc, BitVec.xor_comm (b <<< 1), BitVec.xor_assoc]
  case true.true => exact (hcancel _ _ _).symm

theorem crcBitSerial_xor (a b : Byte) : crcBitSerial (a ^^^ b) = crcBitSerial a ^^^ crcBitSerial b := by
  simp only [crcBitSerial, crcShift_xor]

/-- R104 (1). -/
theorem crcEntry_xor (a b : Byte) : crcEntry (a ^^^ b) = crcEntry a ^^^ crcEntry b := by
  rw [crcEntry_eq_crcBitSerial, crcEntry_eq_crcBitSerial, crcEntry_eq_crcBitSerial, crcBitSerial_xor]

theorem crcEntry_zero : crcEntry 0 = 0 := by decide

/-! Bijections. -/

/-- Only entry 0 is zero. -/
theorem eq_zero_of_crcEntry_eq_zero : ∀ a : Byte, crcEntry a = 0 → a = 0 := by decide

/-- R104 (2). -/
theorem crcEntry_bijective : Function.Bijective crcEntry := by
  refine Finite.injective_iff_bijective.1 fun a b h => ?_
  have hzero : crcEntry (a ^^^ b) = 0 := by rw [crcEntry_xor, h, BitVec.xor_self]; rfl
  exact BitVec.xor_eq_zero_iff.1 (eq_zero_of_crcEntry_eq_zero _ hzero)

theorem xor_left_bijective (c : Byte) : Function.Bijective fun b : Byte => c ^^^ b :=
  Function.Involutive.bijective fun b => by rw [← BitVec.xor_assoc, BitVec.xor_self, BitVec.zero_xor]

theorem crc8Update_comm (c b : Byte) : crc8Update c b = crc8Update b c := by
  rw [crc8Update, BitVec.xor_comm, crc8Update]

theorem crc8Update_bijective_right (c : Byte) : Function.Bijective fun b => crc8Update c b :=
  crcEntry_bijective.comp (xor_left_bijective c)

theorem crc8Update_bijective_left (b : Byte) : Function.Bijective fun c => crc8Update c b := by
  simp only [crc8Update_comm _ b]
  exact crc8Update_bijective_right b

/-- Settles O7. -/
theorem crcTableLinearBijective : Obligations.CrcTableLinearBijective :=
  ⟨crcEntry_zero, crcEntry_xor, crcEntry_bijective, crc8Update_bijective_left, crc8Update_bijective_right⟩

/-- Accumulators that differ still differ after any bytes. -/
theorem crc8UpdateMany_injective (data : List Byte) : Function.Injective fun c => crc8UpdateMany c data := by
  induction data with
  | nil => exact Function.injective_id
  | cons b data ih => exact ih.comp (crc8Update_bijective_left b).injective

/-- Settles O8: the byte that differs makes the accumulators differ, and no later byte makes them equal again. -/
theorem crcResidueAndDetection : Obligations.CrcResidueAndDetection := by
  refine ⟨crc8_append_crc8, fun s t b b' hne heq => hne ?_⟩
  rw [crc8, crc8, crc8UpdateMany_append, crc8UpdateMany_append, crc8UpdateMany_cons, crc8UpdateMany_cons] at heq
  exact (crc8Update_bijective_right _).injective (crc8UpdateMany_injective t heq)

end Sys2Proof.Machine
end

section
/-! SUPPORT. One byte that is discarded (R132, R236): what `FEED_BYTE` does in each state of the receive machine when a
check fails. With the bytes that pass their checks, that is every `FEED_BYTE`. -/

namespace Sys2Proof.Machine

/-! The outcome of a rejected byte. -/

/-- A rule that raises an error and leaves a frame in no progress. With the byte counted before it and the outcome after it,
that is the step as the statements name it. -/
theorem exec_feedByte_of_rejection {s u : State} {b : Byte} {r : Rx} {e : ErrorName} {st : RxState}
    (hexec : exec (.feedByte b) s = .next (returnOutcome u))
    (hrule : u = setRxState st (raiseRx e { countRxByte s with rx := r })) (hst : st.inProgress = false) :
    exec (.feedByte b) s = .next (s.discarding { r with state := st } e) := by
  have hrx : (setRxState st (raiseRx e { countRxByte s with rx := r })).rx.state.inProgress = false := hst
  have hout : s.out ++ [.raised e] ++ [.outcome .discarded] = s.out ++ [.raised e, .outcome .discarded] := by simp
  rw [hexec, hrule, returnOutcome, hrx, State.discarding, ← hout]
  rfl

/-- Settles O13. -/
theorem feedByteWhileSearching : Obligations.FeedByteWhileSearching := by
  intro b s h
  constructor
  · rintro rfl
    rw [← crc8_syncVal]
    exact exec_feedByte_syncVal h
  · intro hb
    exact exec_feedByte_of_rejection (exec_feedByte_of_searching h b) (if_neg hb) rfl

/-- Settles O14: the state accepts what is the byte of a frame type. -/
theorem feedByteInType : Obligations.FeedByteInType := by
  intro b s h
  rw [← FrameType.ofByte_isSome_iff]
  exact ⟨fun hb => exec_feedByte_type h hb,
    fun hb => exec_feedByte_of_rejection (exec_feedByte_of_type h b) (if_neg hb) rfl⟩

/-- Settles O15. -/
theorem feedByteInSize : Obligations.FeedByteInSize := by
  intro b s h
  refine ⟨fun hc => exec_feedByte_size_low h hc b, ?_⟩
  rintro v rfl hc
  refine ⟨fun ⟨hmin, hmax⟩ => exec_feedByte_size_high h hc hmin hmax, fun hrange => ?_⟩
  exact exec_feedByte_of_rejection (exec_feedByte_of_size h b) ((if_neg hc).trans (if_pos hrange)) rfl

/-- Settles O16. -/
theorem feedByteInObjectId : Obligations.FeedByteInObjectId := by
  intro b s h
  exact ⟨fun hc => exec_feedByte_objectId_first h hc b, fun hc => exec_feedByte_objectId_next h hc b,
    fun hc => exec_feedByte_objectId_last h hc b⟩

/-! Payload length discovery where a check fails (R127, R235); where all pass it is `rxDiscover_of_expected`. -/

section
variable {s : State} {m : ObjectMeta}

theorem rxDiscover_of_unknown (h : s.env.catalog.lookup s.rx.objid = none) :
    rxDiscover s = enterError .unknownObject s := by
  rw [rxDiscover, h]

theorem rxDiscover_of_large (hm : s.env.catalog.lookup s.rx.objid = some m) (h : 256 ≤ expectedLength s.rx.type m) :
    rxDiscover s = enterError .payloadTooLarge { s with rx := { s.rx with objMeta := some m } } := by
  rw [rxDiscover, hm]
  exact if_pos h

theorem rxDiscover_of_mismatch (hm : s.env.catalog.lookup s.rx.objid = some m) (hmax : expectedLength s.rx.type m ≤ 255)
    (h : 10 + expectedLength s.rx.type m ≠ s.rx.size.toNat) :
    rxDiscover s = enterError .lengthMismatch { s with rx := { s.rx with objMeta := some m } } := by
  rw [rxDiscover, hm]
  exact (if_neg hmax.not_gt).trans (if_pos h)

end

/-- The control types expect nothing, the others the object's size (R127). -/
theorem expectedLength_eq (ty : Byte) (m : ObjectMeta) :
    expectedLength ty m = if ty ∈ ([0x21, 0x23, 0x24] : List Byte) then 0 else m.fixedSize := by
  simp [expectedLength]

/-- Settles O17: after the second byte the step is what payload length discovery does. -/
theorem feedByteInInstanceId : Obligations.FeedByteInInstanceId := by
  intro b s h
  refine ⟨fun hc => exec_feedByte_instanceId_low h hc b, ?_⟩
  rintro r rfl hc
  have hexec := exec_feedByte_of_instanceId h b
  refine ⟨fun hm => exec_feedByte_of_rejection hexec ((if_neg hc).trans (rxDiscover_of_unknown hm)) rfl, ?_⟩
  intro m e hm he
  rw [← expectedLength_eq] at he
  subst he
  refine ⟨fun hlarge => ?_, fun hmax hlen => ?_, fun hpos hmax hlen => ?_, fun hzero hlen => ?_⟩
  · exact exec_feedByte_of_rejection hexec ((if_neg hc).trans (rxDiscover_of_large hm hlarge)) rfl
  · exact exec_feedByte_of_rejection hexec
      ((if_neg hc).trans (rxDiscover_of_mismatch hm (Nat.lt_succ_iff.1 hmax) hlen)) rfl
  · have hnext := exec_feedByte_instanceId_high h hc hm (Nat.lt_succ_iff.1 hmax) hlen b
    rwa [if_pos hpos] at hnext
  · have hnext := exec_feedByte_instanceId_high h hc hm (by omega) (by omega) b
    rwa [hzero] at hnext

/-! State `Data` (R128). -/

/-- The next index of the payload buffer exists unless the count is 255 (R31). -/
theorem count_lt_maxPayload {c : BitVec 8} (h : c ≠ 255) : c.toNat < Config.maxPayload := by
  have hlt := c.isLt
  have hne : c.toNat ≠ 255 := fun heq => h (BitVec.eq_of_toNat_eq heq)
  unfold Config.maxPayload
  omega

/-- The byte of index `rx_count`, whether or not it is the last one. -/
theorem exec_feedByte_data {s : State} (h : s.rx.state = .data) (hc : s.rx.count ≠ 255) (b : Byte) :
    exec (.feedByte b) s = .next (s.awaiting { s.rx.fold b with
      buf := Memory.write s.rx.count.toNat b s.rx.buf
      count := s.rx.count + 1
      state := if s.rx.count + 1 = s.rx.expected then .checksum else .data }) := by
  by_cases hlast : s.rx.count + 1 = s.rx.expected
  · rw [if_pos hlast]
    exact exec_feedByte_data_last h hc hlast b
  · rw [if_neg hlast, ← h]
    exact exec_feedByte_data_next h hc hlast b

/-- Settles O18: one write at index `rx_count`, read back by the laws of the buffer. -/
theorem feedByteInData : Obligations.FeedByteInData := by
  intro b s h
  constructor
  · intro hc
    refine ⟨_, exec_feedByte_data h hc b, rfl, fun hwf => ⟨?_, ?_⟩, fun a ha => ?_⟩
    · exact Memory.read_write_same hwf
    · exact Memory.write_wf (count_lt_maxPayload hc) hwf
    · exact Memory.read_write_other ha b s.rx.buf
  · intro hc
    rw [exec_feedByte_of_recover (by rw [h]; rfl), feedInState, countRxByte_rx, h]
    exact if_pos hc

/-! State `Checksum` (R129). -/

/-- A byte that completes no frame in state `Checksum`. -/
theorem exec_feedByte_of_checksum {s : State} (h : s.rx.state = .checksum) {b : Byte}
    (hr : (rxChecksum b (countRxByte s)).rx.state ≠ .complete) :
    exec (.feedByte b) s = .next (returnOutcome (rxChecksum b (countRxByte s))) := by
  rw [exec_feedByte_of_recover (by rw [h]; rfl), feedInState, countRxByte_rx, h]
  exact if_neg hr

theorem exec_feedByte_badChecksum {s : State} (h : s.rx.state = .checksum) {b : Byte} (hb : b ≠ s.rx.crc) :
    exec (.feedByte b) s =
      .next (s.discarding { s.rx with pktlen := s.rx.pktlen + 1, state := .error } .badChecksum) := by
  have hrule : rxChecksum b (countRxByte s) =
      enterError .badChecksum { countRxByte s with rx := { s.rx with pktlen := s.rx.pktlen + 1 } } := if_pos hb
  exact exec_feedByte_of_rejection (exec_feedByte_of_checksum h (by rw [hrule]; exact nofun)) hrule rfl

theorem exec_feedByte_byteCount {s : State} (h : s.rx.state = .checksum)
    (hlen : (s.rx.pktlen + 1).toNat ≠ s.rx.size.toNat + 1) :
    exec (.feedByte s.rx.crc) s =
      .next (s.discarding { s.rx with pktlen := s.rx.pktlen + 1, state := .error } .byteCount) := by
  have hrule : rxChecksum s.rx.crc (countRxByte s) =
      enterError .byteCount { countRxByte s with rx := { s.rx with pktlen := s.rx.pktlen + 1 } } :=
    (if_neg (not_not.2 rfl)).trans (if_pos hlen)
  exact exec_feedByte_of_rejection (exec_feedByte_of_checksum h (by rw [hrule]; exact nofun)) hrule rfl

/-- Settles O19. -/
theorem checksumRejects : Obligations.ChecksumRejects := by
  intro b s h
  refine ⟨fun hb => exec_feedByte_badChecksum h hb, ?_⟩
  rintro rfl hlen
  exact exec_feedByte_byteCount h hlen

/-- Settles O20: the byte that passes both checks completes the frame; what is then done hangs on the type register. -/
theorem completedFrameIsDispatched : Obligations.CompletedFrameIsDispatched := by
  rintro s u h hlen rfl
  constructor
  · intro t ht hcarry
    refine exec_feedByte_checksum h hlen ht rfl (hcarry.imp_right fun hzero => ?_)
    rw [hzero]
    rfl
  · intro hnone
    obtain ⟨hne, -⟩ | ⟨-, hne, -⟩ | ⟨-, -, hok⟩ := rxChecksum_cases s.rx.crc (countRxByte s)
    · exact absurd rfl hne
    · exact absurd hlen hne
    · rw [exec_feedByte_of_recover (by rw [h]; rfl)]
      simp only [feedInState, countRxByte_rx, h, hok, if_true, completeFrame, hnone]

/-- Settles O23: the frame but its last byte is collected, and the byte in the place of the checksum is rejected. -/
theorem wrongChecksumIsDiscarded : Obligations.WrongChecksumIsDiscarded := by
  intro t o i p c s hs _ hp hexp hne
  obtain ⟨m, hm, he⟩ := Catalog.expects_iff.1 hexp
  have hbody := collects_body hs hm he hp i
  have hcount : (frameBody t o i p).length = 10 + p.length := List.length_append
  have hlast : c ≠ (s.rx.atChecksum t o i p m).crc := by
    rw [frameBytes_getLast?] at hne
    rw [Rx.atChecksum_crc]
    rintro rfl
    exact hne rfl
  rw [frameBytes_dropLast, feedAll_append hbody, feedAll_singleton, hcount]
  refine ⟨_, exec_feedByte_badChecksum (s := s.awaitingMany (10 + p.length) _) rfl hlast, rfl, rfl, rfl, rfl, rfl, ?_, rfl⟩
  rw [show 11 + p.length = (10 + p.length) + 1 by omega, Function.iterate_succ_apply']
  rfl

end Sys2Proof.Machine
end

section
/-! SUPPORT. The lookup and the capacity of the transaction table (R151, R156), and `CANCEL_TRANSACTION` (R157). -/

namespace Sys2Proof.Machine

/-! `TXN_FIND`. -/

section
variable {t : TxnTable} {o : ObjId} {i : InstId}

theorem TxnTable.find_exact (h : (t.get o i).isSome = true) : t.find o i = some (o, i) := if_pos h

theorem TxnTable.find_all (h : t.get o i = none) (hall : (t.get o Config.allInstances).isSome = true) :
    t.find o i = some (o, Config.allInstances) := by
  rw [TxnTable.find, h]
  exact if_pos hall

theorem TxnTable.find_eq_none (h : t.get o i = none) (hall : t.get o Config.allInstances = none) : t.find o i = none := by
  rw [TxnTable.find, h, hall]
  rfl

end

/-- Settles O24. -/
theorem txnFindExactFirst : Obligations.TxnFindExactFirst := by
  intro t o i
  refine ⟨TxnTable.find_exact, TxnTable.find_all, TxnTable.find_eq_none, fun k h => ?_, fun k h => ?_⟩
  · obtain ⟨hpending, hobj, -⟩ := TxnTable.find_some h
    exact ⟨hobj, hpending⟩
  · obtain ⟨-, hobj, hinst | hinst⟩ := TxnTable.find_some h <;> exact Prod.ext hobj hinst

/-! `TXN_CAN_OPEN`. -/

theorem roomFor_iff (depth : Config.Limit) (n : Nat) :
    roomFor depth n = true ↔ depth = .unbounded ∨ ∃ k, depth = .finite k ∧ n < k + 1 := by
  cases depth <;> simp [roomFor]

theorem TxnTable.canOpen_iff (depth : Config.Limit) (t : TxnTable) (o : ObjId) (i : InstId) :
    t.canOpen depth o i = true ↔
      (t.get o i).isSome = true ∨ depth = .unbounded ∨ ∃ k, depth = .finite k ∧ t.length < k + 1 := by
  rw [TxnTable.canOpen, Bool.or_eq_true, roomFor_iff]

/-! The two sends after normalization, where the table has no room (R192, R194). -/

section
variable {o : ObjId} {i i' : InstId} {all all' : Bool} {s : State}
  (hn : normalize s.env.catalog o i all = some (i', all')) (hfull : s.txn.canOpen s.params.txnDepth o i' = false)
include hn hfull

theorem sendObject_full : sendObject o i true all s = (s, .fail .tableFull) := by
  rw [sendObject, hn]
  dsimp only
  rw [hfull]
  rfl

theorem sendRequest_full : sendRequest o i all s = (s, .fail .tableFull) := by
  rw [sendRequest, hn]
  dsimp only
  rw [hfull]
  rfl

end

/-- Settles O27. -/
theorem fullTableRefusesSends : Obligations.FullTableRefusesSends := by
  refine ⟨TxnTable.canOpen_iff, fun o i i' all all' s hn hfull => ⟨?_, ?_⟩⟩
  · rw [exec_sendObject, sendObject_full hn hfull]
    rfl
  · rw [exec_sendRequest, sendRequest_full hn hfull]
    rfl

/-! `CANCEL_TRANSACTION`. -/

section
variable {o : ObjId} {i : InstId} {s : State}

theorem exec_cancelTransaction_found {k : TxnKey} (h : s.txn.find o i = some k) : exec (.cancelTransaction o i) s =
    .next { s with txn := s.txn.close k, out := s.out ++ [.failure k.1 k.2, .result (.found true)] } := by
  obtain ⟨hnone, -⟩ | ⟨k', hk', hexec⟩ := exec_cancelTransaction_cases o i s
  · exact absurd (hnone.symm.trans h) nofun
  · obtain rfl : k' = k := Option.some.inj (hk'.symm.trans h)
    rw [hexec, List.append_cons]
    rfl

theorem exec_cancelTransaction_none (h : s.txn.find o i = none) :
    exec (.cancelTransaction o i) s = .next { s with out := s.out ++ [.result (.found false)] } := by
  obtain ⟨-, hexec⟩ | ⟨k, hk, -⟩ := exec_cancelTransaction_cases o i s
  · exact hexec
  · exact absurd (hk.symm.trans h) nofun

end

/-- Settles O28. -/
theorem cancelTransactionResult : Obligations.CancelTransactionResult :=
  fun _ _ _ => ⟨fun _ => exec_cancelTransaction_found, exec_cancelTransaction_none⟩

/-- Closing what a search found leaves nothing to find, where the exact and the all-instances key were not both pending. -/
theorem TxnTable.find_close {t : TxnTable} {o : ObjId} {i : InstId} {k : TxnKey} (hwf : t.wf = true)
    (hone : t.get o i = none ∨ t.get o Config.allInstances = none) (h : t.find o i = some k) :
    (t.close k).find o i = none := by
  have hclosed : (t.close k).get k.1 k.2 = none := TxnTable.get_close_same k hwf
  have hstays {j : InstId} (hj : t.get o j = none) : (t.close k).get o j = none := by
    by_cases hkey : (o, j) = k
    · subst hkey
      exact hclosed
    · rw [TxnTable.get_close_other hkey, hj]
  obtain ⟨hpending, hobj, hinst⟩ := TxnTable.find_some h
  obtain ⟨ko, ki⟩ := k
  obtain rfl : ko = o := hobj
  obtain rfl | rfl : ki = i ∨ ki = Config.allInstances := hinst
  · have hall : t.get ko Config.allInstances = none := hone.resolve_left fun hno => by simp [hno] at hpending
    exact TxnTable.find_eq_none hclosed (hstays hall)
  · have hexact : t.get ko i = none := hone.resolve_right fun hno => by simp [hno] at hpending
    exact TxnTable.find_eq_none (hstays hexact) hclosed

/-- An `ACK` that finds no transaction is only reported (R175). -/
theorem exec_ack_none {o : ObjId} {i : InstId} {s : State} (hi : i ≠ Config.allInstances) (h : s.txn.find o i = none) :
    exec (.ack o i) s = .next (s.reported .ack o i [] true) := by
  have hdispatch : dispatchAck o i s = (s, true) := by
    rw [dispatchAck, if_neg hi, replyReceived, h]
  rw [exec, execAck, hdispatch, finishFrame_eq]

/-- Settles O29: the cancel leaves nothing to find, and a second cancel and a late `ACK` find it so. -/
theorem lateReplyAfterCancelIgnored : Obligations.LateReplyAfterCancelIgnored := by
  intro o i s t hwf hi hone hcancel
  have hnone : t.txn.find o i = none := by
    obtain ⟨hno, hexec⟩ | ⟨k, hk, hexec⟩ := exec_cancelTransaction_cases o i s <;> rw [hexec] at hcancel <;> cases hcancel
    · exact hno
    · exact TxnTable.find_close hwf hone hk
  exact ⟨hnone, exec_cancelTransaction_none hnone, exec_ack_none hi hnone⟩

end Sys2Proof.Machine
end

section
/-! SUPPORT. The instances of an object as an all-instances send goes through them (R193, R55): descending, each once. -/

namespace Sys2Proof.Machine

/-- Insertion keeps the list strictly descending. -/
theorem pairwise_insertDescending (i : InstId) : ∀ {l : List InstId}, l.Pairwise (fun a b => b < a) →
    (insertDescending i l).Pairwise fun a b => b < a
  | [], _ => List.pairwise_singleton _ i
  | j :: l, h => by
    obtain ⟨hj, hl⟩ := List.pairwise_cons.1 h
    unfold insertDescending
    split_ifs with hlt heq
    · refine List.pairwise_cons.2 ⟨fun k hk => ?_, h⟩
      rcases List.mem_cons.1 hk with rfl | hk
      · exact hlt
      · exact BitVec.lt_trans (hj k hk) hlt
    · exact h
    · refine List.pairwise_cons.2 ⟨fun k hk => ?_, pairwise_insertDescending i hl⟩
      rcases mem_insertDescending.1 hk with rfl | hk
      · exact BitVec.lt_of_le_ne (BitVec.not_lt.1 hlt) heq
      · exact hj k hk

/-- The ids put together from a list of stored instances: those of object `o`, but for the reserved id. -/
theorem instanceIds_cons (c : Catalog) (o : ObjId) (e : TxnKey × Stored) (l : List (TxnKey × Stored)) :
    Catalog.instanceIds { c with stored := e :: l } o =
      if e.1.1 = o ∧ e.1.2 ≠ Config.allInstances then insertDescending e.1.2 (Catalog.instanceIds { c with stored := l } o)
      else Catalog.instanceIds { c with stored := l } o := rfl

theorem pairwise_instanceIds (o : ObjId) (c : Catalog) : (c.instanceIds o).Pairwise fun a b => b < a := by
  obtain ⟨objects, l, fresh⟩ := c
  induction l with
  | nil => exact List.Pairwise.nil
  | cons e l ih =>
    rw [instanceIds_cons ⟨objects, l, fresh⟩]
    split
    · exact pairwise_insertDescending e.1.2 ih
    · exact ih

theorem lookupIn_isSome_iff {α β : Type} [DecidableEq α] (k : α) (l : List (α × β)) :
    (lookupIn k l).isSome = true ↔ ∃ e ∈ l, e.1 = k := by
  induction l with
  | nil => simp [lookupIn]
  | cons e l ih =>
    unfold lookupIn
    split
    · rename_i h
      simp [h]
    · rename_i h
      simp [ih, h]

/-- An id is listed exactly when an instance is stored under it and it is not the reserved one. -/
theorem mem_instanceIds_iff_stored {o : ObjId} {j : InstId} {c : Catalog} :
    j ∈ c.instanceIds o ↔ j ≠ Config.allInstances ∧ ∃ e ∈ c.stored, e.1 = (o, j) := by
  obtain ⟨objects, l, fresh⟩ := c
  induction l with
  | nil => simp [Catalog.instanceIds]
  | cons e l ih =>
    have hcons : (∃ e' ∈ e :: l, e'.1 = (o, j)) ↔ e.1 = (o, j) ∨ ∃ e' ∈ l, e'.1 = (o, j) := by simp
    have hhead : e.1 = (o, j) ↔ e.1.1 = o ∧ e.1.2 = j := Prod.ext_iff
    rw [instanceIds_cons ⟨objects, l, fresh⟩, hcons, hhead]
    split
    · rename_i he
      rw [mem_insertDescending, ih]
      constructor
      · rintro (rfl | ⟨hj, hl⟩)
        · exact ⟨he.2, .inl ⟨he.1, rfl⟩⟩
        · exact ⟨hj, .inr hl⟩
      · rintro ⟨hj, ⟨-, hinst⟩ | hl⟩
        · exact .inl hinst.symm
        · exact .inr ⟨hj, hl⟩
    · rename_i he
      rw [ih]
      constructor
      · rintro ⟨hj, hl⟩
        exact ⟨hj, .inr hl⟩
      · rintro ⟨hj, ⟨hobj, rfl⟩ | hl⟩
        · exact absurd ⟨hobj, hj⟩ he
        · exact ⟨hj, hl⟩

/-- The ids listed are those of the instances the catalog finds. -/
theorem mem_instanceIds {c : Catalog} {o : ObjId} {j : InstId} :
    j ∈ c.instanceIds o ↔ (c.lookupInstance o j).isSome = true := by
  rw [mem_instanceIds_iff_stored, Catalog.lookupInstance]
  split
  · rename_i hj
    simp [hj]
  · rename_i hj
    simp only [hj, not_false_eq_true, ne_eq, true_and, lookupIn_isSome_iff]

/-- Settles O42. -/
theorem instanceIdsDescend : Obligations.InstanceIdsDescend := by
  intro c o
  refine ⟨pairwise_instanceIds o c, fun j => mem_instanceIds, fun hmem => ?_⟩
  obtain ⟨hne, -⟩ := mem_instanceIds_iff_stored.1 hmem
  exact hne rfl

end Sys2Proof.Machine
end

section
/-! SUPPORT. The sends (R190 to R194): each by what its transmission answers, with the all-instances send as one run over
the ids that ends accepted or at its first failure. -/

namespace Sys2Proof.Machine

/-! One transmission. The frames without payload are always built; the failures of the others, but for an instance that does
not exist, are `transmitSingle_failsAt`. -/

section
variable {t : FrameType} {s : State}

theorem frameFor_control (ht : t.carriesPayload = false) (o : ObjId) (i : InstId) (c : Catalog) :
    frameFor t o i c = .ok (frameBytes t o i []) := by
  have hpayload : payloadFor t o i c = .ok [] := by simp [payloadFor, ht]
  rw [frameFor, hpayload]
  exact buildFrame_of_le (Nat.zero_le _)

theorem transmitSingle_control_accepted (ht : t.carriesPayload = false) (ha : s.env.sink.answer = true) (o : ObjId)
    (i : InstId) : transmitSingle t o i s = ({ s with
      env := s.env.wrote
      stats := s.stats.sent s.params.statW 11
      out := s.out ++ [.tx (frameBytes t o i []) true] }, .ok) := by
  rw [transmitSingle, frameFor_control ht]
  dsimp only
  rw [if_pos ha, ← ha]
  rfl

theorem transmitSingle_control_rejected (ht : t.carriesPayload = false) (ha : s.env.sink.answer = false) (o : ObjId)
    (i : InstId) : transmitSingle t o i s = ({ s with
      env := s.env.wrote
      stats := s.stats.failedTx s.params.statW
      out := s.out ++ [.tx (frameBytes t o i []) false, .raised .transmitFailure] }, .fail .transmitFailure) := by
  rw [transmitSingle, frameFor_control ht]
  dsimp only
  rw [ha, if_neg Bool.false_ne_true, List.append_cons, ← ha]
  rfl

theorem transmitSingle_missing {o : ObjId} {i : InstId} (ht : t.carriesPayload = true)
    (h : s.env.catalog.lookupInstance o i = none) :
    transmitSingle t o i s = (raiseTx .unknownObject s, .fail .unknownObject) := by
  have hframe : frameFor t o i s.env.catalog = .error .unknownObject := by simp [frameFor, payloadFor, ht, h]
  rw [transmitSingle, hframe]
  rfl

end

/-! All instances, in the order of the ids (R193). -/

theorem sendEach_fail {t : FrameType} {o : ObjId} {j : InstId} {s u : State} {e : ErrorName}
    (h : transmitSingle t o j s = (u, .fail e)) (rest : List InstId) : sendEach t o (j :: rest) s = (u, .fail e) := by
  rw [sendEach, h]

section
variable {t : FrameType} {o : ObjId} {payload : InstId → List Byte} {s : State} (ht : t.carriesPayload = true)
include ht

/-- Every instance can be sent and is accepted. -/
theorem sendAll_sendable (hall : ∀ j ∈ s.env.catalog.instanceIds o, s.env.catalog.sendable o j (payload j))
    (ha : s.env.sink.acceptsNext (s.env.catalog.instanceIds o).length = true) :
    ∃ u, sendAll t o s = (u, .ok) ∧ u.rx = s.rx ∧ u.params = s.params ∧ u.inbox = s.inbox ∧ u.txn = s.txn ∧
      u.env.catalog = s.env.catalog ∧
      u.env.sink = s.env.sink.afterWrites (s.env.catalog.instanceIds o).length ∧
      u.stats = (s.env.catalog.instanceIds o).foldl
        (fun st j => st.sent s.params.statW (11 + (payload j).length)) s.stats ∧
      u.out = s.out ++ (s.env.catalog.instanceIds o).map (fun j => .tx (frameBytes t o j (payload j)) true) := by
  obtain ⟨u, hsend, hu⟩ := sendEach_prefix ht o payload _ [] s hall ha
  rw [List.append_nil] at hsend
  exact ⟨u, hsend, hu⟩

/-- The instance `j` is the first that cannot be sent. -/
theorem sendAll_failsAt {pre post : List InstId} {j : InstId} {e : ErrorName} {lost : List PortEvent}
    (hids : s.env.catalog.instanceIds o = pre ++ j :: post)
    (hpre : ∀ j' ∈ pre, s.env.catalog.sendable o j' (payload j')) (ha : s.env.sink.acceptsNext pre.length = true)
    (hfail : s.env.failsAt t o pre.length j e lost) :
    ∃ u, sendAll t o s = (u, .fail e) ∧ u.rx = s.rx ∧ u.params = s.params ∧ u.inbox = s.inbox ∧ u.txn = s.txn ∧
      u.env.catalog = s.env.catalog ∧ u.env.sink = s.env.sink.afterWrites (pre.length + lost.length) ∧
      u.stats = (pre.foldl (fun st j' => st.sent s.params.statW (11 + (payload j').length)) s.stats).failedTx
        s.params.statW ∧
      u.out = s.out ++ pre.map (fun j' => .tx (frameBytes t o j' (payload j')) true) ++ lost ++ [.raised e] := by
  obtain ⟨v, hsend, hrx, hparams, hinbox, htxn, hcatalog, hsink, hstats, hout⟩ :=
    sendEach_prefix ht o payload pre (j :: post) s hpre ha
  have hj := transmitSingle_failsAt ht (Env.failsAt_after hcatalog hsink hfail)
  have hrun : sendAll t o s = sendEach t o (j :: post) v := by rw [sendAll, hids, hsend]
  refine ⟨_, hrun.trans (sendEach_fail hj post), hrx, hparams, hinbox, htxn, hcatalog, ?_, ?_, ?_⟩
  · rw [Sink.afterWrites_add, ← hsink]
  · rw [← hstats, ← hparams]
  · rw [← hout]

end

/-! `SEND_OBJECT` and `SEND_REQUEST` by the answer of their transmission (R192, R194). -/

/-- The frame type of a send carries a payload, acknowledged or not. -/
theorem carriesPayload_sendType (acked : Bool) : (if acked then FrameType.objAck else .obj).carriesPayload = true := by
  cases acked <;> rfl

theorem sendObject_unknown {o : ObjId} {i : InstId} {all : Bool} {s : State}
    (hn : normalize s.env.catalog o i all = none) (acked : Bool) :
    sendObject o i acked all s = (raiseTx .unknownObject s, .fail .unknownObject) := by
  rw [sendObject, hn]
  rfl

theorem sendRequest_unknown {o : ObjId} {i : InstId} {all : Bool} {s : State}
    (hn : normalize s.env.catalog o i all = none) :
    sendRequest o i all s = (raiseTx .unknownObject s, .fail .unknownObject) := by
  rw [sendRequest, hn]
  rfl

section
variable {o : ObjId} {i i' : InstId} {acked all all' : Bool} {s u : State}
  (hn : normalize s.env.catalog o i all = some (i', all'))
  (hroom : acked = true → s.txn.canOpen s.params.txnDepth o i' = true)
include hn hroom

theorem sendObject_ok (h : (if all' then sendAll (if acked then .objAck else .obj) o s
      else transmitSingle (if acked then .objAck else .obj) o i' s) = (u, .ok)) :
    sendObject o i acked all s = (if acked then openTxn o i' .ack u else u, .ok) := by
  have hopen : ¬(acked && !s.txn.canOpen s.params.txnDepth o i') = true := by
    cases acked <;> simp_all
  rw [sendObject, hn]
  dsimp only
  rw [if_neg hopen, h]

theorem sendObject_fail {e : ErrorName} (h : (if all' then sendAll (if acked then .objAck else .obj) o s
      else transmitSingle (if acked then .objAck else .obj) o i' s) = (u, .fail e)) :
    sendObject o i acked all s = (u, .fail e) := by
  have hopen : ¬(acked && !s.txn.canOpen s.params.txnDepth o i') = true := by
    cases acked <;> simp_all
  rw [sendObject, hn]
  dsimp only
  rw [if_neg hopen, h]

end

section
variable {o : ObjId} {i i' : InstId} {all all' : Bool} {s u : State}
  (hn : normalize s.env.catalog o i all = some (i', all')) (hroom : s.txn.canOpen s.params.txnDepth o i' = true)
include hn hroom

theorem sendRequest_ok (h : transmitSingle .objReq o i' s = (u, .ok)) :
    sendRequest o i all s = (openTxn o i' .obj u, .ok) := by
  rw [sendRequest, hn]
  dsimp only
  rw [hroom, h]
  rfl

theorem sendRequest_fail {e : ErrorName} (h : transmitSingle .objReq o i' s = (u, .fail e)) :
    sendRequest o i all s = (u, .fail e) := by
  rw [sendRequest, hn]
  dsimp only
  rw [hroom, h]
  rfl

end

/-- Settles O40. -/
theorem sendObjectSingle : Obligations.SendObjectSingle := by
  intro o i acked p m s hm hs ha hroom
  have hsend := transmitSingle_sendable (carriesPayload_sendType acked) hs ha
  rw [exec_sendObject, sendObject_ok (normalize_one hm i) hroom hsend, List.append_cons _ _ [_]]
  cases acked <;> rfl

/-- A single send whose transmission fails puts out what the sink rejected, the label and the result, and opens nothing. -/
theorem exec_sendObject_failsAt {o : ObjId} {i : InstId} {acked : Bool} {m : ObjectMeta} {e : ErrorName}
    {lost : List PortEvent} {s : State} (hm : s.env.catalog.lookup o = some m)
    (hroom : acked = true → s.txn.canOpen s.params.txnDepth o i = true)
    (h : s.env.failsAt (if acked then .objAck else .obj) o 0 i e lost) :
    exec (.sendObject o i acked false) s = .next { s with
      env := { s.env with sink := s.env.sink.afterWrites lost.length }
      stats := s.stats.failedTx s.params.statW
      out := s.out ++ lost ++ [.raised e, .result (.fail e)] } := by
  have hfail := transmitSingle_failsAt (carriesPayload_sendType acked) h
  rw [exec_sendObject, sendObject_fail (normalize_one hm i) hroom hfail, List.append_cons _ _ [_]]
  rfl

/-- Settles O41: every failure but the two about what does not exist is one of `failsAt`. -/
theorem sendObjectFailures : Obligations.SendObjectFailures := by
  intro o i acked s failed hfailed
  have hlabelled (e : ErrorName) : returnSend (raiseTx e s, .fail e) = failed e := by
    rw [hfailed, List.append_cons]
    rfl
  constructor
  · intro hm all
    rw [exec_sendObject, sendObject_unknown (normalize_unknown hm i all), hlabelled]
  · intro m hm hroom
    have hunsent {e : ErrorName} (h : s.env.failsAt (if acked then .objAck else .obj) o 0 i e []) :
        exec (.sendObject o i acked false) s = .next (failed e) := by
      rw [exec_sendObject_failsAt hm hroom h, hfailed, List.append_nil]
      rfl
    refine ⟨fun hx => ?_, fun x hx hk => ?_, fun x hx hk hp => ?_, fun x hx hk hp hlarge => ?_, fun p hs ha => ?_⟩
    · have hmissing := transmitSingle_missing (carriesPayload_sendType acked) hx
      rw [exec_sendObject, sendObject_fail (normalize_one hm i) hroom hmissing, hlabelled]
    · exact hunsent (.inl ⟨x, hx, rfl, .inl ⟨hk, rfl⟩⟩)
    · exact hunsent (.inl ⟨x, hx, rfl, .inr (.inl ⟨hk, hp, rfl⟩)⟩)
    · exact hunsent (.inl ⟨x, hx, rfl, .inr (.inr ⟨hk, hp, hlarge, rfl⟩)⟩)
    · rw [exec_sendObject_failsAt hm hroom (.inr ⟨p, hs, ha, rfl, rfl⟩), List.append_assoc]
      rfl

/-- Settles O43: one run over the ids, and the one key opened after it. -/
theorem sendAllInstances : Obligations.SendAllInstances := by
  intro o i acked m payload s hm hmulti hall ha hroom
  obtain ⟨u, hsend, hrx, hparams, hinbox, htxn, hcatalog, hsink, hstats, hout⟩ :=
    sendAll_sendable (carriesPayload_sendType acked) hall ha
  have hexec : exec (.sendObject o i acked true) s =
      .next (returnSend (if acked then openTxn o Config.allInstances .ack u else u, .ok)) := by
    rw [exec_sendObject, sendObject_ok (normalize_all_multi hm hmulti i) hroom hsend]
  refine ⟨_, hexec, ?_⟩
  rw [← htxn, ← hout]
  cases acked with
  | false => exact ⟨hrx, hparams, hinbox, hcatalog, hsink, rfl, hstats, rfl⟩
  | true => exact ⟨hrx, hparams, hinbox, hcatalog, hsink, rfl, hstats, rfl⟩

/-- Settles O44. -/
theorem sendAllStopsAtFirstFailure : Obligations.SendAllStopsAtFirstFailure := by
  intro o i j acked m payload pre post e lost s hm hmulti hids hpre ha hroom hfail
  obtain ⟨u, hsend, hrx, hparams, hinbox, htxn, hcatalog, hsink, hstats, hout⟩ :=
    sendAll_failsAt (carriesPayload_sendType acked) hids hpre ha hfail
  have hexec : exec (.sendObject o i acked true) s = .next (returnSend (u, .fail e)) := by
    rw [exec_sendObject, sendObject_fail (normalize_all_multi hm hmulti i) hroom hsend]
  refine ⟨_, hexec, hrx, htxn, hparams, hinbox, hcatalog, hsink, hstats, ?_⟩
  rw [List.append_cons _ _ [_], ← hout]
  rfl

/-- The instance of a request's frame: `NORMALIZE` in one expression (R191). -/
theorem normalize_inst {c : Catalog} {o : ObjId} {m : ObjectMeta} (hm : c.lookup o = some m) (i : InstId) (all : Bool) :
    ∃ all', normalize c o i all =
      some (if all then (if m.singleInstance then 0 else Config.allInstances) else i, all') := by
  cases all with
  | false => exact ⟨false, normalize_one hm i⟩
  | true => cases hsingle : m.singleInstance with
    | false => exact ⟨true, normalize_all_multi hm hsingle i⟩
    | true => exact ⟨false, normalize_all_single hm hsingle i⟩

/-- Settles O45. -/
theorem sendRequestResult : Obligations.SendRequestResult := by
  intro o i j all s
  constructor
  · rintro m hm rfl hroom
    obtain ⟨all', hn⟩ := normalize_inst hm i all
    refine ⟨fun ha => ?_, fun ha => ?_⟩
    · have hsend := transmitSingle_control_accepted (t := .objReq) rfl ha o
        (if all then (if m.singleInstance then 0 else Config.allInstances) else i)
      rw [exec_sendRequest, sendRequest_ok hn hroom hsend, List.append_cons _ _ [_]]
      rfl
    · have hsend := transmitSingle_control_rejected (t := .objReq) rfl ha o
        (if all then (if m.singleInstance then 0 else Config.allInstances) else i)
      rw [exec_sendRequest, sendRequest_fail hn hroom hsend]
      simp [returnSend, emit, SendResult.toHost, Config.allInstances]
  · intro hm
    rw [exec_sendRequest, sendRequest_unknown (normalize_unknown hm i all), List.append_cons]
    rfl

end Sys2Proof.Machine
end

section
/-! SUPPORT. The received frames (R170 to R176): each is a branch of dispatch, then one counter and the outcome. -/

namespace Sys2Proof.Machine

/-! A frame row whose branch answers `(u, ok)` reports `u` with that status (R136). -/

section
variable {o : ObjId} {i : InstId} {p : List Byte} {s u : State} {ok : Bool}

theorem exec_obj (h : dispatchObj o i p s = (u, ok)) : exec (.obj o i p) s = .next (u.reported .obj o i p ok) := by
  rw [exec, execObj, h, finishFrame_eq]

theorem exec_objReq (h : dispatchObjReq o i s = (u, ok)) : exec (.objReq o i) s = .next (u.reported .objReq o i [] ok) := by
  rw [exec, execObjReq, h, finishFrame_eq]

theorem exec_objAck (h : dispatchObjAck o i p s = (u, ok)) :
    exec (.objAck o i p) s = .next (u.reported .objAck o i p ok) := by
  rw [exec, execObjAck, h, finishFrame_eq]

theorem exec_ack (h : dispatchAck o i s = (u, ok)) : exec (.ack o i) s = .next (u.reported .ack o i [] ok) := by
  rw [exec, execAck, h, finishFrame_eq]

theorem exec_nack (h : dispatchNack o i s = (u, ok)) : exec (.nack o i) s = .next (u.reported .nack o i [] ok) := by
  rw [exec, execNack, h, finishFrame_eq]

end

/-! The update (R171), by what the catalog answers for the instance. -/

section
variable {o : ObjId} {i : InstId} {x : Stored} {s : State}

theorem updateObject_found (hx : s.env.catalog.lookupInstance o i = some x) (hk : x.kind = .dataInstance) (p : List Byte) :
    updateObject o i p s = (unpackInto o i x p s, true) := by
  simp [updateObject, hx, hk]

theorem updateObject_metadata (hx : s.env.catalog.lookupInstance o i = some x) (hk : x.kind = .metadata) (p : List Byte) :
    updateObject o i p s = (emit (.raised .castError) s, false) := by
  simp [updateObject, hx, hk]

theorem updateObject_created (hx : s.env.catalog.lookupInstance o i = none)
    (hk : (s.env.catalog.freshInstance (o, i)).kind = .dataInstance) (p : List Byte) :
    updateObject o i p s = (unpackInto o i (s.env.catalog.freshInstance (o, i)) p (createInstance o i s).1, true) := by
  rw [updateObject, hx]
  dsimp only
  rw [createInstance_snd, hk]
  rfl

theorem updateObject_created_metadata (hx : s.env.catalog.lookupInstance o i = none)
    (hk : (s.env.catalog.freshInstance (o, i)).kind = .metadata) (p : List Byte) :
    updateObject o i p s = (emit (.raised .castError) (createInstance o i s).1, false) := by
  rw [updateObject, hx]
  dsimp only
  rw [createInstance_snd, hk]
  rfl

end

/-! `OBJ` (R172): the update, then the reply it may be. -/

section
variable {o : ObjId} {i : InstId} {p : List Byte} {s u : State} (hi : i ≠ Config.allInstances)
include hi

/-- A transaction that an `OBJ` does not close: it waits for an acknowledgement, or it is for all instances and the `OBJ` is
for another than instance 0 (R158). -/
theorem exec_obj_stays (hu : updateObject o i p s = (u, true))
    (h : ∀ k, u.txn.find o i = some k → u.txn.get k.1 k.2 = some .ack ∨ (k.2 = 0xFFFF ∧ i ≠ 0)) :
    exec (.obj o i p) s = .next (u.reported .obj o i p true) := by
  have hstays : replyReceived .obj o i u = u := by
    refine replyReceived_stays fun k hk => (h k hk).imp_left fun hack => ?_
    rw [hack]
    exact nofun
  refine exec_obj ?_
  rw [dispatchObj, if_neg hi, hu]
  exact congrArg (·, true) hstays

theorem exec_obj_closes (hu : updateObject o i p s = (u, true)) {k : TxnKey} (hk : u.txn.find o i = some k)
    (hg : u.txn.get k.1 k.2 = some .obj) (hinst : k.2 ≠ 0xFFFF ∨ i = 0) :
    exec (.obj o i p) s = .next ((closeSuccess k u).reported .obj o i p true) := by
  refine exec_obj ?_
  rw [dispatchObj, if_neg hi, hu]
  exact congrArg (·, true) (replyReceived_closes hk hg hinst)

theorem exec_obj_castError (hu : updateObject o i p s = (u, false)) :
    exec (.obj o i p) s = .next (u.reported .obj o i p false) := by
  refine exec_obj ?_
  rw [dispatchObj, if_neg hi, hu]

end

theorem HandleKind.dataInstance_or_metadata (k : HandleKind) : k = .dataInstance ∨ k = .metadata := by
  cases k with
  | metadata => exact .inr rfl
  | dataInstance => exact .inl rfl

/-- Settles O30. -/
theorem objUpdatesInstance : Obligations.ObjUpdatesInstance := by
  rintro o i p x e s hi hx hk rfl
  have hu := updateObject_found hx hk p
  refine ⟨fun h => ?_, fun k hf hg hinst => ?_, lookupInstance_store_same s.env o hi _, rfl,
    fun o' i' hne => lookupInstance_store_other s.env hne _⟩
  · rw [exec_obj_stays hi hu h, List.append_cons]
    rfl
  · rw [exec_obj_closes hi hu hf hg hinst, List.append_cons, List.append_cons _ _ [_]]
    rfl

/-- Settles O31: the environment answers what is created, and its kind decides between the update and a `CastError`. -/
theorem objCreatesInstance : Obligations.ObjCreatesInstance := by
  rintro o i p x s hi hx rfl
  have hother (y : Stored) (e : Env) (o' : ObjId) (i' : InstId) (hne : (o', i') ≠ (o, i)) :
      (e.store (o, i) y).catalog.lookupInstance o' i' = e.catalog.lookupInstance o' i' :=
    lookupInstance_store_other e hne y
  obtain hk | hk := HandleKind.dataInstance_or_metadata (s.env.catalog.freshInstance (o, i)).kind
  · have hu := updateObject_created hx hk p
    refine ⟨(s.env.store (o, i) (s.env.catalog.freshInstance (o, i))).store (o, i)
      { s.env.catalog.freshInstance (o, i) with bytes := p }, rfl, rfl, rfl, fun o' i' hne => ?_, fun _ => ⟨?_, ?_, ?_⟩,
      fun hmeta => absurd (hk.symm.trans hmeta) nofun⟩
    · rw [hother _ _ _ _ hne, hother _ _ _ _ hne]
    · exact lookupInstance_store_same _ o hi _
    · intro h
      rw [exec_obj_stays hi hu h, List.append_cons, List.append_cons _ _ [_]]
      rfl
    · intro k hf hg hinst
      rw [exec_obj_closes hi hu hf hg hinst, List.append_cons, List.append_cons _ _ [_, _], List.append_cons _ _ [_]]
      rfl
  · refine ⟨s.env.store (o, i) (s.env.catalog.freshInstance (o, i)), rfl, rfl, rfl, hother _ _,
      fun hdata => absurd (hk.symm.trans hdata) nofun, fun _ => ⟨?_, ?_⟩⟩
    · exact lookupInstance_store_same _ o hi _
    · rw [exec_obj_castError hi (updateObject_created_metadata hx hk p), List.append_cons, List.append_cons _ _ [_]]
      rfl

/-- Settles O32: the sentinel is looked at before anything else, and a metadata handle ends the update. -/
theorem illegalFramesOnlyCount : Obligations.IllegalFramesOnlyCount := by
  intro o p s
  refine ⟨?_, ?_, ?_, fun i x hi hx hk => ?_⟩
  · have hillegal : dispatchObj o 0xFFFF p s = illegalFrame s := if_pos rfl
    rw [exec_obj hillegal, List.append_cons]
    rfl
  · have hillegal : dispatchObjAck o 0xFFFF p s = illegalFrame s := if_pos rfl
    rw [exec_objAck hillegal, List.append_cons]
    rfl
  · have hillegal : dispatchAck o 0xFFFF s = illegalFrame s := if_pos rfl
    rw [exec_ack hillegal, List.append_cons]
    rfl
  · rw [exec_obj_castError hi (updateObject_metadata hx hk p), List.append_cons]
    rfl

/-! `OBJ_ACK` (R173): the update, then the acknowledgement whatever its status. -/

theorem exec_objAck_updated {o : ObjId} {i : InstId} {p : List Byte} {s u : State} {ok : Bool}
    (hi : i ≠ Config.allInstances) (hu : updateObject o i p s = (u, ok)) :
    exec (.objAck o i p) s = .next ((u.afterControl .ack o i).reported .objAck o i p ok) := by
  refine exec_objAck ?_
  rw [dispatchObjAck, if_neg hi, hu]
  exact congrArg (·, ok) (transmitSingle_control rfl o i u)

section
variable {s : State}

theorem afterControl_accepted (ha : s.env.sink.answer = true) (t : FrameType) (o : ObjId) (i : InstId) :
    s.afterControl t o i = { s with
      env := s.env.wrote
      stats := s.stats.sent s.params.statW 11
      out := s.out ++ [.tx (frameBytes t o i []) true] } := if_pos ha

theorem afterControl_rejected (ha : s.env.sink.answer = false) (t : FrameType) (o : ObjId) (i : InstId) :
    s.afterControl t o i = { s with
      env := s.env.wrote
      stats := s.stats.failedTx s.params.statW
      out := s.out ++ [.tx (frameBytes t o i []) false, .raised .transmitFailure] } :=
  if_neg (by rw [ha]; exact Bool.false_ne_true)

end

/-- A frame without payload is presented exactly once, with the sink's answer. -/
theorem afterControl_out (t : FrameType) (o : ObjId) (i : InstId) (s : State) :
    ∃ evs, (s.afterControl t o i).out = s.out ++ evs ∧
      evs.filter PortEvent.isTx = [.tx (frameBytes t o i []) s.env.sink.answer] := by
  cases ha : s.env.sink.answer with
  | true => exact ⟨_, by rw [afterControl_accepted ha], rfl⟩
  | false => exact ⟨_, by rw [afterControl_rejected ha], rfl⟩

/-- Settles O33. -/
theorem objAckUpdatesAndAcknowledges : Obligations.ObjAckUpdatesAndAcknowledges := by
  rintro o i p x e s hi hx hk rfl
  have hexec := exec_objAck_updated hi (updateObject_found hx hk p)
  refine ⟨fun ha => ?_, fun ha => ?_⟩
  · rw [hexec, afterControl_accepted (s := unpackInto o i x p s) ha, State.reported]
    simp [Env.wrote]
  · rw [hexec, afterControl_rejected (s := unpackInto o i x p s) ha, State.reported]
    simp [Env.wrote]

/-- What an update does to the rest of the state (R171): nothing but to the instance `(o, i)`, and it presents no frame. -/
structure UpdateOnly (o : ObjId) (i : InstId) (s u : State) : Prop where
  rx : u.rx = s.rx
  txn : u.txn = s.txn
  stats : u.stats = s.stats
  params : u.params = s.params
  inbox : u.inbox = s.inbox
  sink : u.env.sink = s.env.sink
  objects : u.env.catalog.objects = s.env.catalog.objects
  fresh : u.env.catalog.fresh = s.env.catalog.fresh
  others : ∀ o' i', (o', i') ≠ (o, i) → u.env.catalog.lookupInstance o' i' = s.env.catalog.lookupInstance o' i'
  out : ∃ evs, u.out = s.out ++ evs ∧ evs.filter PortEvent.isTx = []

section
variable (o : ObjId) (i : InstId)

theorem UpdateOnly.emit_raised (e : ErrorName) (s : State) : UpdateOnly o i s (emit (.raised e) s) :=
  ⟨rfl, rfl, rfl, rfl, rfl, rfl, rfl, rfl, fun _ _ _ => rfl, _, rfl, rfl⟩

theorem UpdateOnly.unpackInto (x : Stored) (p : List Byte) (s : State) : UpdateOnly o i s (unpackInto o i x p s) :=
  ⟨rfl, rfl, rfl, rfl, rfl, rfl, rfl, rfl, fun _ _ hne => lookupInstance_store_other s.env hne _, _, rfl, rfl⟩

theorem UpdateOnly.createInstance (s : State) : UpdateOnly o i s (createInstance o i s).1 :=
  ⟨rfl, rfl, rfl, rfl, rfl, rfl, rfl, rfl, fun _ _ hne => lookupInstance_store_other s.env hne _, _, rfl, rfl⟩

variable {o i}

theorem UpdateOnly.trans {s t u : State} (h : UpdateOnly o i s t) (h' : UpdateOnly o i t u) : UpdateOnly o i s u := by
  obtain ⟨a, ha, hqa⟩ := h.out
  obtain ⟨b, hb, hqb⟩ := h'.out
  exact ⟨h'.rx.trans h.rx, h'.txn.trans h.txn, h'.stats.trans h.stats, h'.params.trans h.params, h'.inbox.trans h.inbox,
    h'.sink.trans h.sink, h'.objects.trans h.objects, h'.fresh.trans h.fresh,
    fun o' i' hne => (h'.others o' i' hne).trans (h.others o' i' hne), a ++ b, by rw [hb, ha, List.append_assoc],
    by rw [List.filter_append, hqa, hqb]; rfl⟩

theorem updateObject_only (p : List Byte) (s : State) : UpdateOnly o i s (updateObject o i p s).1 := by
  obtain ⟨x, -, -, h⟩ | ⟨x, -, -, h⟩ | ⟨-, -, h⟩ | ⟨-, -, h⟩ := updateObject_cases o i p s <;> rw [h]
  · exact .unpackInto o i x p s
  · exact .emit_raised o i _ s
  · exact (UpdateOnly.createInstance o i s).trans (.unpackInto o i _ p _)
  · exact (UpdateOnly.createInstance o i s).trans (.emit_raised o i _ _)

end

/-- Settles O34: whatever the update does, the `ACK` after it is the one frame; and what the update does and answers is said
by the catalog's answer, case by case. -/
theorem objAckAlwaysAcknowledges : Obligations.ObjAckAlwaysAcknowledges := by
  intro o i p s hi
  have hu := updateObject_only (o := o) (i := i) p s
  obtain ⟨evs, hevs, hquiet⟩ := hu.out
  obtain ⟨sent, hsent, hframe⟩ := afterControl_out .ack o i (updateObject o i p s).1
  refine ⟨(updateObject o i p s).1, (updateObject o i p s).2,
    evs ++ sent ++ [.outcome (.framedOk .objAck o i p (updateObject o i p s).2)], exec_objAck_updated hi rfl, ?_, ?_,
    hu.rx, hu.txn, hu.stats, hu.params, hu.inbox, hu.sink, hu.objects, hu.fresh, hu.others,
    fun x hx hk => ?_, fun x hx hk => ?_, ?_⟩
  · rw [State.reported, hsent, hevs]
    simp
  · rw [List.filter_append, List.filter_append, hquiet, hframe, hu.sink]
    rfl
  · rw [updateObject_found hx hk]
    exact ⟨rfl, rfl, lookupInstance_store_same _ o hi _⟩
  · rw [updateObject_metadata hx hk]
    exact ⟨rfl, rfl, rfl⟩
  · rintro x hx rfl
    refine ⟨fun hk => ?_, fun hk => ?_⟩
    · rw [updateObject_created hx hk, List.append_cons _ _ [_]]
      exact ⟨rfl, rfl, lookupInstance_store_same _ o hi _⟩
    · rw [updateObject_created_metadata hx hk, List.append_cons _ _ [_]]
      exact ⟨rfl, rfl, lookupInstance_store_same _ o hi _⟩

end Sys2Proof.Machine
end

section
/-! SUPPORT. `OBJ_REQ` (R174): the object goes back, or a Nack; and the two replies `ACK` and `NACK` (R175, R176). -/

namespace Sys2Proof.Machine

/-! The three ways a request ends. -/

section
variable {o : ObjId} {i : InstId} {s u : State}

theorem dispatchObjReq_unresolved (h : targetResolved s.env.catalog o (requestTarget i) = false) :
    dispatchObjReq o i s = (s.afterControl .nack o i, false) := by
  rw [dispatchObjReq, if_neg (by rw [h]; exact Bool.false_ne_true), transmitSingle_control rfl]

theorem dispatchObjReq_sent (h : targetResolved s.env.catalog o (requestTarget i) = true)
    (hsend : sendObject o (requestTarget i) false (i = Config.allInstances) s = (u, .ok)) :
    dispatchObjReq o i s = (u, true) := by
  rw [dispatchObjReq, if_pos h, hsend]

theorem dispatchObjReq_failed {e : ErrorName} (h : targetResolved s.env.catalog o (requestTarget i) = true)
    (hsend : sendObject o (requestTarget i) false (i = Config.allInstances) s = (u, .fail e)) :
    dispatchObjReq o i s = (u.afterControl .nack o i, true) := by
  rw [dispatchObjReq, if_pos h, hsend]
  exact congrArg (·, true) (transmitSingle_control rfl o i u)

end

/-! Whether the target is resolved, by what the catalog answers. -/

section
variable {c : Catalog} {o : ObjId} {j : InstId} {x : Stored}

theorem targetResolved_missing (h : c.lookupInstance o j = none) : targetResolved c o j = false := by
  rw [targetResolved, h]

theorem targetResolved_metadata (h : c.lookupInstance o j = some x) (hk : x.kind = .metadata) :
    targetResolved c o j = false := by
  simp [targetResolved, h, hk]

theorem targetResolved_dataInstance (h : c.lookupInstance o j = some x) (hk : x.kind = .dataInstance) :
    targetResolved c o j = true := by
  simp [targetResolved, h, hk]

end

/-! One resolved target sent alone: the exact instance, or instance 0 of a single-instance object. -/

section
variable {o : ObjId} {i : InstId} {m : ObjectMeta} {s : State}

theorem normalize_requestTarget {c : Catalog} (hm : c.lookup o = some m)
    (hsingle : i = Config.allInstances → m.singleInstance = true) :
    normalize c o (requestTarget i) (i = Config.allInstances) = some (requestTarget i, false) := by
  by_cases hi : i = Config.allInstances
  · rw [requestTarget, if_pos hi, decide_eq_true hi]
    exact normalize_all_single hm (hsingle hi) 0
  · rw [requestTarget, if_neg hi, decide_eq_false hi]
    exact normalize_one hm i

variable (hresolved : targetResolved s.env.catalog o (requestTarget i) = true)
include hresolved

theorem exec_objReq_unknown (hm : s.env.catalog.lookup o = none) : exec (.objReq o i) s =
    .next (((raiseTx .unknownObject s).afterControl .nack o i).reported .objReq o i [] true) :=
  exec_objReq (dispatchObjReq_failed hresolved (sendObject_unknown (normalize_unknown hm _ _) false))

variable (hm : s.env.catalog.lookup o = some m) (hsingle : i = Config.allInstances → m.singleInstance = true)
include hm hsingle

theorem exec_objReq_failsAt {e : ErrorName} {lost : List PortEvent}
    (h : s.env.failsAt .obj o 0 (requestTarget i) e lost) :
    exec (.objReq o i) s = .next ((State.afterControl .nack o i { s with
      env := { s.env with sink := s.env.sink.afterWrites lost.length }
      stats := s.stats.failedTx s.params.statW
      out := s.out ++ lost ++ [.raised e] }).reported .objReq o i [] true) :=
  exec_objReq (dispatchObjReq_failed hresolved
    (sendObject_fail (acked := false) (normalize_requestTarget hm hsingle) nofun (transmitSingle_failsAt rfl h)))

theorem exec_objReq_sendable {p : List Byte} (h : s.env.catalog.sendable o (requestTarget i) p)
    (ha : s.env.sink.answer = true) : exec (.objReq o i) s = .next (State.reported .objReq o i [] true { s with
      env := s.env.wrote
      stats := s.stats.sent s.params.statW (11 + p.length)
      out := s.out ++ [.tx (frameBytes .obj o (requestTarget i) p) true] }) :=
  exec_objReq (dispatchObjReq_sent hresolved
    (sendObject_ok (acked := false) (normalize_requestTarget hm hsingle) nofun (transmitSingle_sendable rfl h ha)))

end

/-- Settles O35: the target exists and is a `DataInstance`, so that what can go wrong is an unknown object or one of
`failsAt`. -/
theorem objReqSendsInstance : Obligations.ObjReqSendsInstance := by
  intro o i j x s hj hx hk
  obtain rfl : j = requestTarget i := hj
  have hresolved := targetResolved_dataInstance hx hk
  refine ⟨exec_objReq_unknown hresolved, fun m hm hsingle => ?_⟩
  have hunsent {e : ErrorName} (h : s.env.failsAt .obj o 0 (requestTarget i) e []) :
      exec (.objReq o i) s = .next ((State.afterControl .nack o i { s with
        stats := s.stats.failedTx s.params.statW, out := s.out ++ [.raised e] }).reported .objReq o i [] true) := by
    rw [exec_objReq_failsAt hresolved hm hsingle h, List.append_nil]
    rfl
  refine ⟨fun hp => ?_, fun hp hlarge => ?_, fun hp hl ha => ?_, fun hp hl ha => ?_⟩
  · exact hunsent (.inl ⟨x, hx, rfl, .inr (.inl ⟨hk, hp, rfl⟩)⟩)
  · exact hunsent (.inl ⟨x, hx, rfl, .inr (.inr ⟨hk, hp, hlarge, rfl⟩)⟩)
  · rw [exec_objReq_failsAt hresolved hm hsingle (.inr ⟨x.bytes, ⟨x, hx, hk, hp, rfl, hl⟩, ha, rfl, rfl⟩),
      List.append_assoc]
    rfl
  · rw [exec_objReq_sendable hresolved hm hsingle ⟨x, hx, hk, hp, rfl, hl⟩ ha, List.append_cons _ _ [_]]
    rfl

/-- Settles O36. -/
theorem objReqUnresolvedNacks : Obligations.ObjReqUnresolvedNacks := by
  intro o i j s hj hx
  obtain rfl : j = requestTarget i := hj
  have hunresolved : targetResolved s.env.catalog o (requestTarget i) = false := by
    obtain hnone | ⟨x, hx, hk⟩ := hx
    · exact targetResolved_missing hnone
    · exact targetResolved_metadata hx hk
  have hexec := exec_objReq (dispatchObjReq_unresolved hunresolved)
  refine ⟨fun ha => ?_, fun ha => ?_⟩
  · rw [hexec, afterControl_accepted ha, List.append_cons _ _ [_]]
    rfl
  · rw [hexec, afterControl_rejected ha, State.reported, List.append_assoc]
    rfl

/-- Settles O37: the reply is an unacknowledged all-instances send, and a Nack where that stops. -/
theorem objReqAllInstances : Obligations.ObjReqAllInstances := by
  intro o m x payload s hm hmulti hx hk
  have hresolved : targetResolved s.env.catalog o (requestTarget 0xFFFF) = true := targetResolved_dataInstance hx hk
  have hn : normalize s.env.catalog o (requestTarget 0xFFFF) ((0xFFFF : InstId) = Config.allInstances) =
      some (Config.allInstances, true) := normalize_all_multi hm hmulti _
  constructor
  · intro hall ha
    obtain ⟨u, hsend, hrx, hparams, hinbox, htxn, hcatalog, hsink, hstats, hout⟩ :=
      sendAll_sendable (t := .obj) rfl hall ha
    refine ⟨_, exec_objReq (dispatchObjReq_sent hresolved (sendObject_ok (acked := false) hn nofun hsend)), hrx, htxn,
      hparams, hinbox, hcatalog, hsink, ?_, ?_⟩
    · rw [← hstats, ← hparams]
      rfl
    · rw [← hout]
      rfl
  · intro pre post j e lost hids hpre ha hfail
    obtain ⟨u, hsend, hrx, hparams, hinbox, htxn, hcatalog, hsink, hstats, hout⟩ :=
      sendAll_failsAt (t := .obj) rfl hids hpre ha hfail
    exact ⟨u, exec_objReq (dispatchObjReq_failed hresolved (sendObject_fail (acked := false) hn nofun hsend)), hrx,
      htxn, hparams, hinbox, hcatalog, hsink, hstats, hout⟩

/-! `ACK` and `NACK`. -/

/-- Settles O38. -/
theorem ackClosesTransaction : Obligations.AckClosesTransaction := by
  intro o i s hi
  have hdispatch : dispatchAck o i s = (replyReceived .ack o i s, true) := if_neg hi
  refine ⟨fun k hf hg hinst => ?_, fun h => ?_⟩
  · rw [exec_ack hdispatch, replyReceived_closes hf hg hinst, List.append_cons _ _ [_]]
    rfl
  · have hstays : replyReceived .ack o i s = s := by
      refine replyReceived_stays fun k hk => (h k hk).imp_left fun hobj => ?_
      rw [hobj]
      exact nofun
    rw [exec_ack hdispatch, hstays]
    rfl

/-- Settles O39. -/
theorem nackClosesAnyTransaction : Obligations.NackClosesAnyTransaction := by
  intro o i s
  refine ⟨fun k hf => ?_, fun hf => ?_⟩
  · have hdispatch : dispatchNack o i s = (closeSuccess k s, true) := by rw [dispatchNack, hf]
    rw [exec_nack hdispatch, List.append_cons _ _ [_]]
    rfl
  · have hdispatch : dispatchNack o i s = (s, true) := by rw [dispatchNack, hf]
    exact exec_nack hdispatch

end Sys2Proof.Machine
end

section
/-! SUPPORT. What one instruction does outside the receive registers and the counters, said once for all fourteen: to the
table and its notifications (R231), to the catalog and its announcements (R36), and to what is put out. -/

namespace Sys2Proof.Machine

/-- What the table does while the events `evs` are put out: nothing; one pending entry is closed and its key is notified
with `note`; or a key for which there was room is opened. -/
def TxnMoves (note : TxnKey → PortEvent) (s t : State) (evs : List PortEvent) : Prop :=
  (evs.filter PortEvent.isNote = [] ∧ t.txn = s.txn) ∨
  (∃ k : TxnKey, (s.txn.get k.1 k.2).isSome = true ∧ evs.filter PortEvent.isNote = [note k] ∧ t.txn = s.txn.close k) ∨
  (evs.filter PortEvent.isNote = [] ∧
    ∃ o i r, s.txn.canOpen s.params.txnDepth o i = true ∧ t.txn = s.txn.insert o i r)

/-- The effect of one instruction from `s` to `t`. -/
structure InstrEffect (note : TxnKey → PortEvent) (s t : State) : Prop where
  params : t.params = s.params
  inbox : t.inbox = s.inbox
  objects : t.env.catalog.objects = s.env.catalog.objects
  out : ∃ evs, t.out = s.out ++ evs ∧ TxnMoves note s t evs ∧
    ((∀ e ∈ evs, e.isCatalogChange = false) → t.env.catalog = s.env.catalog)

/-- The notification of an instruction that closes a transaction (R157, R231). -/
def closingNote (i : Instr) (k : TxnKey) : PortEvent := if i.isCancel then .failure k.1 k.2 else .success k.1 k.2

/-- The success channel. -/
def successNote (k : TxnKey) : PortEvent := .success k.1 k.2

/-- Every instruction that is no cancel notifies success. -/
theorem closingNote_of_not_cancel {i : Instr} (h : i.isCancel = false) : closingNote i = successNote := by
  funext k
  rw [closingNote, h]
  rfl

section
variable {note : TxnKey → PortEvent} {s t : State}

/-- The table, the environment and the record of `s` are all the effect reads of it, beside the parameters and the inbox. -/
theorem InstrEffect.congr {s' : State} (h : InstrEffect note s' t) (hparams : s'.params = s.params)
    (hinbox : s'.inbox = s.inbox) (henv : s'.env = s.env) (hout : s'.out = s.out) (htxn : s'.txn = s.txn) :
    InstrEffect note s t := by
  obtain ⟨evs, hevs, hmoves, hcatalog⟩ := h.out
  rw [hout] at hevs
  rw [TxnMoves, htxn, hparams] at hmoves
  rw [henv] at hcatalog
  exact ⟨h.params.trans hparams, h.inbox.trans hinbox, h.objects.trans (by rw [henv]), evs, hevs, hmoves, hcatalog⟩

/-- Events that are no notification, with a table and a catalog that stay. -/
theorem InstrEffect.of_quiet {evs : List PortEvent} (hparams : t.params = s.params) (hinbox : t.inbox = s.inbox)
    (hcatalog : t.env.catalog = s.env.catalog) (htxn : t.txn = s.txn) (hout : t.out = s.out ++ evs)
    (hquiet : evs.filter PortEvent.isNote = []) : InstrEffect note s t :=
  ⟨hparams, hinbox, by rw [hcatalog], evs, hout, .inl ⟨hquiet, htxn⟩, fun _ => hcatalog⟩

/-- The result of a pure operation (R100, R101, R110) or of `STATS_READ`. -/
theorem InstrEffect.emit {e : PortEvent} (he : e.isNote = false) (s : State) : InstrEffect note s (emit e s) :=
  .of_quiet rfl rfl rfl rfl rfl (by simp [he])

/-- A byte that completed no frame. -/
theorem InstrEffect.of_unfinished (h : Unfinished s t) : InstrEffect note s t := by
  obtain ⟨htxn, hparams, henv, hinbox, ⟨-, hout⟩ | ⟨e, -, hout⟩⟩ := h
  · exact .of_quiet hparams hinbox (by rw [henv]) htxn hout rfl
  · exact .of_quiet hparams hinbox (by rw [henv]) htxn hout rfl

/-! Frames. -/

/-- Dispatch notifies through the success channel (R177), and the outcome after it is neither notification nor catalog
change. -/
theorem InstrEffect.finishFrame_dispatch (ty : FrameType) (o : ObjId) (i : InstId) (p : List Byte) (s : State) :
    InstrEffect successNote s (finishFrame ty o i p (dispatch ty o i p s)) := by
  have h := dispatch_effect ty o i p s
  obtain ⟨evs, hevs, -, hmoves, hcatalog⟩ := h.out
  have hnotes (oc : FrameOutcome) : (evs ++ [.outcome oc] : List PortEvent).filter PortEvent.isNote =
      evs.filter PortEvent.isNote := by
    rw [List.filter_append]
    exact List.append_nil _
  refine ⟨by rw [finishFrame_params, h.grows.1], by rw [finishFrame_inbox, h.inbox], by rw [finishFrame_env, h.objects],
    evs ++ [.outcome (.framedOk ty o i p (dispatch ty o i p s).2)], by rw [finishFrame_out, hevs, List.append_assoc], ?_,
    fun hall => ?_⟩
  · rw [TxnMoves, hnotes, finishFrame_txn]
    obtain ⟨hquiet, htxn⟩ | ⟨k, hpending, hnote, htxn⟩ := hmoves
    · exact .inl ⟨hquiet, htxn⟩
    · exact .inr (.inl ⟨k, hpending, hnote, htxn⟩)
  · rw [finishFrame_env]
    exact hcatalog fun e he => hall e (List.mem_append_left _ he)

/-! Sends. -/

/-- A transmission puts out frames and labels, no notification. -/
theorem TxOnly.notes (h : TxOnly s t) : ∃ evs, t.out = s.out ++ evs ∧ evs.filter PortEvent.isNote = [] := by
  obtain ⟨evs, hout, hevs⟩ := h.out
  refine ⟨evs, hout, List.filter_eq_nil_iff.2 fun e he => ?_⟩
  obtain htx | ⟨n, rfl⟩ := hevs e he
  · cases e with
    | tx => exact Bool.false_ne_true
    | outcome | success | failure | result | stats | create | unpack | raised => cases htx
  · exact Bool.false_ne_true

theorem InstrEffect.of_send (h : TxOnly s t) (res : SendResult) : InstrEffect note s (returnSend (t, res)) := by
  obtain ⟨evs, hevs, hquiet⟩ := h.notes
  refine .of_quiet (evs := evs ++ [.result res.toHost]) h.grows.1 h.inbox h.catalog h.txn
    (by rw [returnSend_out, hevs, List.append_assoc]) ?_
  rw [List.filter_append, hquiet]
  rfl

theorem InstrEffect.of_open (h : TxOnly s t) {o : ObjId} {i : InstId}
    (hroom : s.txn.canOpen s.params.txnDepth o i = true) (r : Resp) (res : SendResult) :
    InstrEffect note s (returnSend (openTxn o i r t, res)) := by
  obtain ⟨evs, hevs, hquiet⟩ := h.notes
  refine ⟨h.grows.1, h.inbox, by rw [returnSend_env, openTxn_env, h.catalog], evs ++ [.result res.toHost],
    by rw [returnSend_out, openTxn_out, hevs, List.append_assoc], .inr (.inr ⟨?_, o, i, r, hroom, ?_⟩), fun _ => h.catalog⟩
  · rw [List.filter_append, hquiet]
    rfl
  · rw [returnSend_txn, openTxn_txn, h.txn]

theorem InstrEffect.sendObject (o : ObjId) (i : InstId) (acked all : Bool) (s : State) :
    InstrEffect note s (returnSend (sendObject o i acked all s)) := by
  obtain ⟨-, h⟩ | ⟨i', all', -, ⟨-, -, h⟩ | ⟨hroom, s', htx, ⟨e, h⟩ | h⟩⟩ := sendObject_cases o i acked all s <;> rw [h]
  · exact .of_send (TxOnly.raiseTx _ s) _
  · exact .of_send (TxOnly.refl s) _
  · exact .of_send htx _
  · cases acked with
    | false => exact .of_send htx _
    | true => exact .of_open htx (hroom rfl) .ack _

theorem InstrEffect.sendRequest (o : ObjId) (i : InstId) (all : Bool) (s : State) :
    InstrEffect note s (returnSend (sendRequest o i all s)) := by
  obtain ⟨-, h⟩ | ⟨i', all', -, ⟨-, h⟩ | ⟨hroom, s', htx, ⟨e, h⟩ | h⟩⟩ := sendRequest_cases o i all s <;> rw [h]
  · exact .of_send (TxOnly.raiseTx _ s) _
  · exact .of_send (TxOnly.refl s) _
  · exact .of_send htx _
  · exact .of_open htx hroom .obj _

end

/-! All fourteen. -/

theorem exec_feedByte_effect {b : Byte} {s t : State} (h : exec (.feedByte b) s = .next t) :
    InstrEffect successNote s t := by
  obtain hun | ⟨r, ty, o, i, p, rfl⟩ := exec_feedByte_cases h
  · exact (InstrEffect.of_unfinished hun).congr rfl rfl rfl rfl rfl
  · exact (InstrEffect.finishFrame_dispatch ty o i p _).congr rfl rfl rfl rfl rfl

/-- The cancel notifies failure (R157). -/
theorem exec_cancelTransaction_effect {o : ObjId} {i : InstId} {s t : State}
    (h : exec (.cancelTransaction o i) s = .next t) : InstrEffect (closingNote (.cancelTransaction o i)) s t := by
  obtain ⟨-, hexec⟩ | ⟨k, hk, hexec⟩ := exec_cancelTransaction_cases o i s <;> rw [hexec] at h <;> cases h
  · exact .emit rfl s
  · obtain ⟨hpending, -⟩ := TxnTable.find_some hk
    exact ⟨rfl, rfl, rfl, [.failure k.1 k.2, .result (.found true)], by simp, .inr (.inl ⟨k, hpending, rfl, rfl⟩),
      fun _ => rfl⟩

theorem exec_effect {i : Instr} {s t : State} (h : exec i s = .next t) : InstrEffect (closingNote i) s t := by
  by_cases hcancel : i.isCancel = true
  · cases i with
    | cancelTransaction o n => exact exec_cancelTransaction_effect h
    | obj | objReq | objAck | ack | nack | crc8Update | crc8UpdateMany | buildFrame | feedByte | sendObject | sendRequest
    | statsReset | statsRead => cases hcancel
  · rw [closingNote_of_not_cancel (Bool.not_eq_true _ ▸ hcancel)]
    cases i with
    | obj o n p => cases h; exact .finishFrame_dispatch .obj o n p s
    | objReq o n => cases h; exact .finishFrame_dispatch .objReq o n [] s
    | objAck o n p => cases h; exact .finishFrame_dispatch .objAck o n p s
    | ack o n => cases h; exact .finishFrame_dispatch .ack o n [] s
    | nack o n => cases h; exact .finishFrame_dispatch .nack o n [] s
    | crc8Update c b => cases h; exact .emit rfl s
    | crc8UpdateMany c data => cases h; exact .emit rfl s
    | buildFrame ty o n data => cases h; exact .emit rfl s
    | feedByte b => exact exec_feedByte_effect h
    | sendObject o n acked all => cases h; exact .sendObject o n acked all s
    | sendRequest o n all => cases h; exact .sendRequest o n all s
    | cancelTransaction o n => exact absurd rfl hcancel
    | statsReset => cases h; exact .of_quiet rfl rfl rfl rfl (List.append_nil _).symm rfl
    | statsRead => cases h; exact .emit rfl s

/-! The receive registers: `FEED_BYTE` alone writes them. -/

theorem sendObject_rx (o : ObjId) (i : InstId) (acked all : Bool) (s : State) :
    (sendObject o i acked all s).1.rx = s.rx := by
  obtain ⟨-, h⟩ | ⟨i', all', -, ⟨-, -, h⟩ | ⟨-, s', htx, ⟨e, h⟩ | h⟩⟩ := sendObject_cases o i acked all s <;> rw [h]
  · rfl
  · exact htx.rx
  · cases acked with
    | false => exact htx.rx
    | true => exact htx.rx

theorem sendRequest_rx (o : ObjId) (i : InstId) (all : Bool) (s : State) : (sendRequest o i all s).1.rx = s.rx := by
  obtain ⟨-, h⟩ | ⟨i', all', -, ⟨-, h⟩ | ⟨-, s', htx, ⟨e, h⟩ | h⟩⟩ := sendRequest_cases o i all s <;> rw [h]
  · rfl
  · exact htx.rx
  · exact htx.rx

theorem finishFrame_dispatch_rx (ty : FrameType) (o : ObjId) (i : InstId) (p : List Byte) (s : State) :
    (finishFrame ty o i p (dispatch ty o i p s)).rx = s.rx := by
  rw [finishFrame_rx, (dispatch_effect ty o i p s).rx]

theorem exec_rx {i : Instr} {s t : State} (hi : ∀ b, i ≠ .feedByte b) (h : exec i s = .next t) : t.rx = s.rx := by
  cases i with
  | obj o n p => cases h; exact finishFrame_dispatch_rx .obj o n p s
  | objReq o n => cases h; exact finishFrame_dispatch_rx .objReq o n [] s
  | objAck o n p => cases h; exact finishFrame_dispatch_rx .objAck o n p s
  | ack o n => cases h; exact finishFrame_dispatch_rx .ack o n [] s
  | nack o n => cases h; exact finishFrame_dispatch_rx .nack o n [] s
  | crc8Update | crc8UpdateMany | buildFrame | statsReset | statsRead => cases h; rfl
  | feedByte b => exact absurd rfl (hi b)
  | sendObject o n acked all => cases h; exact sendObject_rx o n acked all s
  | sendRequest o n all => cases h; exact sendRequest_rx o n all s
  | cancelTransaction o n =>
    obtain ⟨-, hexec⟩ | ⟨k, -, hexec⟩ := exec_cancelTransaction_cases o n s <;> rw [hexec] at h <;> cases h <;> rfl

/-- Settles O58. -/
theorem onlyFeedByteMovesReceiver : Obligations.OnlyFeedByteMovesReceiver := by
  intro i s t h
  have heffect := exec_effect h
  obtain ⟨evs, hevs, -⟩ := heffect.out
  refine ⟨fun hi => ?_, heffect.params, heffect.inbox, evs, hevs⟩
  have hrx := exec_rx hi h
  exact ⟨hrx, fun a => by rw [hrx]⟩

/-- Settles O59: opening loses no key, and closing loses the one that is notified. -/
theorem notificationsMatchClosings : Obligations.NotificationsMatchClosings := by
  intro i s t hwf h
  obtain ⟨evs, hevs, ⟨hquiet, htxn⟩ | ⟨k, hpending, hnote, htxn⟩ | ⟨hquiet, o, n, r, -, htxn⟩, -⟩ := (exec_effect h).out
  · exact ⟨evs, hevs, .inl ⟨hquiet, fun _ _ hget => by rwa [htxn]⟩⟩
  · exact ⟨evs, hevs, .inr ⟨k, hpending, htxn, by rw [htxn, TxnTable.get_close_same k hwf], hnote⟩⟩
  · refine ⟨evs, hevs, .inl ⟨hquiet, fun o' n' hget => ?_⟩⟩
    rw [htxn]
    by_cases hkey : (o', n') = (o, n)
    · obtain ⟨rfl, rfl⟩ := Prod.mk.inj hkey
      rw [TxnTable.get_insert_same]
      rfl
    · rwa [TxnTable.get_insert_other hkey]

/-- Settles O60. -/
theorem catalogChangesAreAnnounced : Obligations.CatalogChangesAreAnnounced := by
  intro i s t h
  have heffect := exec_effect h
  obtain ⟨evs, hevs, -, hcatalog⟩ := heffect.out
  exact ⟨heffect.objects, evs, hevs, hcatalog⟩

end Sys2Proof.Machine
end

section
/-! SUPPORT. The invariant of the receive registers (R39): a byte that becomes part of the frame extends the bytes consumed
by itself, in every state, and so the accumulator stays their CRC. -/

namespace Sys2Proof.Machine

/-! Fields half assembled: the bytes still to come are zero in the register. -/

theorem byte_toNat_zero : (0 : Byte).toNat = 0 := rfl

theorem toNat_setWidth16 (b : Byte) : (b.setWidth 16).toNat = b.toNat := BitVec.toNat_setWidth_of_le (by decide)

theorem toNat_setWidth32 (b : Byte) : (b.setWidth 32).toNat = b.toNat := BitVec.toNat_setWidth_of_le (by decide)

/-- A u16 register below 256 holds one byte. -/
theorem exists_setWidth16 {v : Half} (h : v.toNat < 256) : ∃ b0 : Byte, v = b0.setWidth 16 := by
  obtain ⟨b0, b1, rfl⟩ := exists_join16 v
  refine ⟨b0, BitVec.eq_of_toNat_eq ?_⟩
  rw [join16_toNat] at h ⊢
  rw [toNat_setWidth16]
  omega

/-- The bytes of a u16 register that holds one byte (R124, R126). -/
theorem le16_setWidth (b0 : Byte) : le16 (b0.setWidth 16) = [b0, 0] := by
  have hjoin : b0.setWidth 16 = join16 b0 0 := BitVec.eq_of_toNat_eq (by rw [join16_toNat, toNat_setWidth16]; rfl)
  rw [hjoin, le16_join16]

/-- The same with the high byte in place. -/
theorem le16_putHigh (b0 b1 : Byte) : le16 (putHigh (b0.setWidth 16) b1) = [b0, b1] := by
  rw [putHigh_setWidth, le16_join16]

theorem eq_join32 {v : ObjId} {b0 b1 b2 b3 : Byte}
    (h : v.toNat = b0.toNat + 256 * b1.toNat + 65536 * b2.toNat + 16777216 * b3.toNat) : v = join32 b0 b1 b2 b3 :=
  BitVec.eq_of_toNat_eq (h.trans (join32_toNat b0 b1 b2 b3).symm)

/-- A number below `256 ^ k` has its first `k` bytes and no others. -/
theorem exists_join32_of_lt {v : ObjId} : (v.toNat < 256 → ∃ b0, v = join32 b0 0 0 0) ∧
    (v.toNat < 65536 → ∃ b0 b1, v = join32 b0 b1 0 0) ∧ (v.toNat < 16777216 → ∃ b0 b1 b2, v = join32 b0 b1 b2 0) := by
  obtain ⟨b0, b1, b2, b3, rfl⟩ := exists_join32 v
  simp only [join32_toNat]
  refine ⟨fun h => ⟨b0, eq_join32 ?_⟩, fun h => ⟨b0, b1, eq_join32 ?_⟩, fun h => ⟨b0, b1, b2, eq_join32 ?_⟩⟩
  all_goals
    rw [join32_toNat]
    simp only [byte_toNat_zero]
    omega

/-- The next byte of the object id put in place (R125). -/
theorem putByte_join32 (b0 b1 b2 b3 : Byte) : putByte (join32 b0 0 0 0) 1 b1 = join32 b0 b1 0 0 ∧
    putByte (join32 b0 b1 0 0) 2 b2 = join32 b0 b1 b2 0 ∧ putByte (join32 b0 b1 b2 0) 3 b3 = join32 b0 b1 b2 b3 := by
  refine ⟨eq_join32 ?_, eq_join32 ?_, eq_join32 ?_⟩
  all_goals
    rw [putByte_toNat (by rw [join32_toNat]; simp only [byte_toNat_zero]; omega) (by decide), join32_toNat]
    simp only [byte_toNat_zero]
    omega

/-- Byte `k` of the object id put above the `k` bytes before it (R125): the register then has `k + 1` bytes. -/
theorem putByte_bytes {v : ObjId} {k : Nat} (hpos : 0 < k) (hlt : k < 4) (hv : v.toNat < 256 ^ k) (b : Byte) :
    (putByte v k b).toNat < 256 ^ (k + 1) ∧ (le32 (putByte v k b)).take (k + 1) = (le32 v).take k ++ [b] := by
  obtain ⟨hone, htwo, hthree⟩ := exists_join32_of_lt (v := v)
  obtain rfl | rfl | rfl : k = 1 ∨ k = 2 ∨ k = 3 := by omega
  · obtain ⟨b0, rfl⟩ := hone hv
    obtain ⟨hput, -, -⟩ := putByte_join32 b0 b 0 0
    rw [hput, le32_join32, le32_join32, join32_toNat]
    exact ⟨by rw [byte_toNat_zero]; omega, rfl⟩
  · obtain ⟨b0, b1, rfl⟩ := htwo hv
    obtain ⟨-, hput, -⟩ := putByte_join32 b0 b1 b 0
    rw [hput, le32_join32, le32_join32, join32_toNat]
    exact ⟨by rw [byte_toNat_zero]; omega, rfl⟩
  · obtain ⟨b0, b1, b2, rfl⟩ := hthree hv
    obtain ⟨-, -, hput⟩ := putByte_join32 b0 b1 b2 b
    rw [hput, le32_join32, le32_join32, join32_toNat]
    exact ⟨by omega, rfl⟩

/-- The register of the object id after one more byte (R125), whatever it held before the first. -/
theorem nextObjid_bytes {r : Rx} (hlt : r.count.toNat < 4) (hv : r.count = 0 ∨ r.objid.toNat < 256 ^ r.count.toNat)
    (b : Byte) : (nextObjid r b).toNat < 256 ^ (r.count.toNat + 1) ∧
      (le32 (nextObjid r b)).take (r.count.toNat + 1) = (le32 r.objid).take r.count.toNat ++ [b] := by
  by_cases hc : r.count = 0
  · have hjoin : b.setWidth 32 = join32 b 0 0 0 := eq_join32 (toNat_setWidth32 b)
    rw [nextObjid_first hc, hc, hjoin, le32_join32, join32_toNat]
    exact ⟨by rw [byte_toNat_zero]; omega, rfl⟩
  · rw [nextObjid_later hc]
    have hpos : 0 < r.count.toNat := Nat.pos_of_ne_zero fun hzero => hc (BitVec.eq_of_toNat_eq hzero)
    exact putByte_bytes hpos hlt (hv.resolve_left hc) b

/-! The invariant of each state, as a proposition. -/

section
variable {r : Rx}

theorem Rx.inv_of_sync (h : r.state = .sync) : r.inv = true := by rw [Rx.inv, h]

theorem Rx.inv_of_error (h : r.state = .error) : r.inv = true := by rw [Rx.inv, h]

theorem Rx.inv_type_iff (h : r.state = .type) :
    r.inv = true ↔ r.pktlen = 1 ∧ r.crc = 0xB4 ∧ r.count = 0 ∧ r.crc = crc8 r.consumed := by
  simp [Rx.inv, h, Rx.crcAgrees_iff, and_assoc]

theorem Rx.inv_size_iff (h : r.state = .size) : r.inv = true ↔ r.pktlen.toNat = 2 + r.count.toNat ∧
    r.count.toNat < 2 ∧ (r.count = 0 ∨ r.size.toNat < 256) ∧ r.typeLegal = true ∧ r.crc = crc8 r.consumed := by
  simp [Rx.inv, h, Rx.crcAgrees_iff, and_assoc]

theorem Rx.inv_objectId_iff (h : r.state = .objectId) : r.inv = true ↔ r.pktlen.toNat = 4 + r.count.toNat ∧
    r.count.toNat < 4 ∧ (r.count = 0 ∨ r.objid.toNat < 256 ^ r.count.toNat) ∧ r.sizeLegal = true ∧ r.typeLegal = true ∧
    r.crc = crc8 r.consumed := by
  simp [Rx.inv, h, Rx.crcAgrees_iff, and_assoc]

theorem Rx.inv_instanceId_iff (h : r.state = .instanceId) : r.inv = true ↔ r.pktlen.toNat = 8 + r.count.toNat ∧
    r.count.toNat < 2 ∧ (r.count = 0 ∨ r.instid.toNat < 256) ∧ r.sizeLegal = true ∧ r.typeLegal = true ∧
    r.crc = crc8 r.consumed := by
  simp [Rx.inv, h, Rx.crcAgrees_iff, and_assoc]

theorem Rx.inv_data_iff (h : r.state = .data) : r.inv = true ↔ r.pktlen.toNat = 10 + r.count.toNat ∧
    r.count.toNat < r.expected.toNat ∧ r.size.toNat = 10 + r.expected.toNat ∧ r.carriesPayload = true ∧
    r.typeLegal = true ∧ r.crc = crc8 r.consumed := by
  simp [Rx.inv, h, Rx.crcAgrees_iff, and_assoc]

theorem Rx.inv_checksum_iff (h : r.state = .checksum) : r.inv = true ↔ r.pktlen.toNat = 10 + r.expected.toNat ∧
    r.count = r.expected ∧ r.size.toNat = 10 + r.expected.toNat ∧ (r.carriesPayload = true ∨ r.expected = 0) ∧
    r.typeLegal = true ∧ r.crc = crc8 r.consumed := by
  simp [Rx.inv, h, Rx.crcAgrees_iff, and_assoc]

theorem Rx.inv_complete_iff (h : r.state = .complete) : r.inv = true ↔ r.pktlen.toNat = 11 + r.expected.toNat ∧
    r.count = r.expected ∧ r.size.toNat = 10 + r.expected.toNat ∧ (r.carriesPayload = true ∨ r.expected = 0) ∧
    r.typeLegal = true := by
  simp [Rx.inv, h, and_assoc]

/-! The bytes consumed. -/

/-- Inside the header they are its beginning. -/
theorem Rx.consumed_header {n : Nat} (h : r.pktlen.toNat = n) (hn : n ≤ 10) :
    r.consumed = (frameHeader r.type r.size r.objid r.instid).take n := by
  rw [Rx.consumed, h, List.take_append_of_le_length (by simpa using hn)]

/-- After it they are the header and the payload so far. -/
theorem Rx.consumed_payload (h : r.pktlen.toNat = 10 + r.count.toNat) :
    r.consumed = frameHeader r.type r.size r.objid r.instid ++ r.buf.firstBytes r.count.toNat := by
  rw [Rx.consumed, h, List.take_of_length_le]
  rw [List.length_append, frameHeader_length, Memory.firstBytes_length]

theorem pktlen_succ {k : BitVec 9} (h : k.toNat < 511) : (k + 1).toNat = k.toNat + 1 :=
  BitVec.toNat_add_of_lt (show k.toNat + 1 < 2 ^ 9 by omega)

/-- Folding a byte keeps the accumulator the CRC of the bytes consumed, when those grow by that byte. -/
theorem crc_eq_of_fold {b : Byte} {r' : Rx} (h : r.crc = crc8 r.consumed) (hcrc : r'.crc = crc8Update r.crc b)
    (hconsumed : r'.consumed = r.consumed ++ [b]) : r'.crc = crc8 r'.consumed := by
  rw [hcrc, hconsumed, crc8_snoc, h]

/-- The same for a byte of the header: the register it went to is where the header reads it. -/
theorem crc_eq_of_fold_header {n : Nat} {b : Byte} {r' : Rx} (h : r.crc = crc8 r.consumed) (hlen : r.pktlen.toNat = n)
    (hn : n < 10) (hcrc : r'.crc = crc8Update r.crc b) (hlen' : r'.pktlen.toNat = n + 1)
    (hheader : (frameHeader r'.type r'.size r'.objid r'.instid).take (n + 1) =
      (frameHeader r.type r.size r.objid r.instid).take n ++ [b]) : r'.crc = crc8 r'.consumed := by
  refine crc_eq_of_fold h hcrc ?_
  rw [Rx.consumed_header hlen hn.le, Rx.consumed_header hlen' hn, hheader]

end

/-! Each byte that is accepted. -/

section
variable {r : Rx} {b : Byte}

theorem Rx.inv_type_next (hs : r.state = .type) (h : r.inv = true) (hb : (FrameType.ofByte b).isSome = true) :
    Rx.inv { r.fold b with type := b, count := 0, state := .size } = true := by
  obtain ⟨hlen, -, -, hcrc⟩ := (Rx.inv_type_iff hs).1 h
  have hlen1 : r.pktlen.toNat = 1 := congrArg BitVec.toNat hlen
  have hlen2 : (r.pktlen + 1).toNat = 2 := by rw [pktlen_succ (by omega), hlen1]
  exact (Rx.inv_size_iff rfl).2 ⟨hlen2, Nat.zero_lt_succ _, .inl rfl, hb,
    crc_eq_of_fold_header hcrc hlen1 (by decide) rfl hlen2 rfl⟩

theorem toNat_eq_one_of_lt_two {c : BitVec 8} (hlt : c.toNat < 2) (hc : c ≠ 0) : c.toNat = 1 := by
  have hne : c.toNat ≠ 0 := fun hzero => hc (BitVec.eq_of_toNat_eq hzero)
  omega

theorem Rx.inv_size_low (hs : r.state = .size) (h : r.inv = true) (hc : r.count = 0) :
    Rx.inv { r.fold b with size := b.setWidth 16, count := 1 } = true := by
  obtain ⟨hlen, -, -, hlegal, hcrc⟩ := (Rx.inv_size_iff hs).1 h
  have hlen2 : r.pktlen.toNat = 2 := by rw [hlen, hc]; rfl
  have hlen3 : (r.pktlen + 1).toNat = 3 := by rw [pktlen_succ (by omega), hlen2]
  refine (Rx.inv_size_iff (r := { r.fold b with size := b.setWidth 16, count := 1 }) hs).2 ⟨hlen3, Nat.one_lt_two,
    .inr ((toNat_setWidth16 b).trans_lt b.isLt), hlegal, crc_eq_of_fold_header hcrc hlen2 (by decide) rfl hlen3 ?_⟩
  simp [frameHeader, le16_setWidth]

theorem Rx.inv_size_high (hs : r.state = .size) (h : r.inv = true) (hc : r.count ≠ 0)
    (hmin : 10 ≤ (putHigh r.size b).toNat) (hmax : (putHigh r.size b).toNat ≤ 266) :
    Rx.inv { r.fold b with size := putHigh r.size b, count := 0, state := .objectId } = true := by
  obtain ⟨hlen, hlt, hsmall, hlegal, hcrc⟩ := (Rx.inv_size_iff hs).1 h
  have hlen3 : r.pktlen.toNat = 3 := by rw [hlen, toNat_eq_one_of_lt_two hlt hc]
  have hlen4 : (r.pktlen + 1).toNat = 4 := by rw [pktlen_succ (by omega), hlen3]
  have hrange : (decide (10 ≤ (putHigh r.size b).toNat) && decide ((putHigh r.size b).toNat ≤ 266)) = true := by
    rw [decide_eq_true hmin, decide_eq_true hmax]
    rfl
  refine (Rx.inv_objectId_iff rfl).2 ⟨hlen4, Nat.zero_lt_succ _, .inl rfl, hrange, hlegal,
    crc_eq_of_fold_header hcrc hlen3 (by decide) rfl hlen4 ?_⟩
  obtain ⟨b0, hb0⟩ := exists_setWidth16 (hsmall.resolve_left hc)
  simp [frameHeader, hb0, le16_setWidth, le16_putHigh]

/-- The header up to the object id's first `k` bytes. -/
theorem take_frameHeader_objid {k : Nat} (hk : k ≤ 4) (ty : Byte) (len : Half) (o : ObjId) (i : InstId) :
    (frameHeader ty len o i).take (4 + k) = [Config.syncVal, ty] ++ le16 len ++ (le32 o).take k := by
  obtain rfl | rfl | rfl | rfl | rfl : k = 0 ∨ k = 1 ∨ k = 2 ∨ k = 3 ∨ k = 4 := by omega
  all_goals rfl

/-- A byte of the object id extends the header by itself. -/
theorem take_frameHeader_nextObjid (hlt : r.count.toNat < 4)
    (hv : r.count = 0 ∨ r.objid.toNat < 256 ^ r.count.toNat) :
    (frameHeader r.type r.size (nextObjid r b) r.instid).take (4 + r.count.toNat + 1) =
      (frameHeader r.type r.size r.objid r.instid).take (4 + r.count.toNat) ++ [b] := by
  obtain ⟨-, hbytes⟩ := nextObjid_bytes hlt hv b
  rw [Nat.add_assoc, take_frameHeader_objid (k := r.count.toNat + 1) (by omega), take_frameHeader_objid (by omega), hbytes,
    List.append_assoc _ _ [b]]

theorem Rx.inv_objectId_next (hs : r.state = .objectId) (h : r.inv = true) (hc : r.count + 1 ≠ 4) :
    Rx.inv { r.fold b with objid := nextObjid r b, count := r.count + 1 } = true := by
  obtain ⟨hlen, hlt, hsmall, hsize, hlegal, hcrc⟩ := (Rx.inv_objectId_iff hs).1 h
  have hcount : (r.count + 1).toNat = r.count.toNat + 1 := BitVec.toNat_add_of_lt (show r.count.toNat + 1 < 2 ^ 8 by omega)
  have hne : (r.count + 1).toNat ≠ 4 := fun heq => hc (BitVec.eq_of_toNat_eq heq)
  have hlen' : (r.pktlen + 1).toNat = 4 + r.count.toNat + 1 := by rw [pktlen_succ (by omega), hlen]
  obtain ⟨hbound, -⟩ := nextObjid_bytes hlt hsmall b
  rw [← hcount] at hbound
  exact (Rx.inv_objectId_iff (r := { r.fold b with objid := nextObjid r b, count := r.count + 1 }) hs).2
    ⟨by dsimp only [Rx.fold]; omega, by dsimp only; omega, .inr hbound, hsize, hlegal,
      crc_eq_of_fold_header hcrc hlen (by omega) rfl hlen' (take_frameHeader_nextObjid hlt hsmall)⟩

theorem Rx.inv_objectId_last (hs : r.state = .objectId) (h : r.inv = true) (hc : r.count + 1 = 4) :
    Rx.inv { r.fold b with objid := nextObjid r b, count := 0, state := .instanceId } = true := by
  obtain ⟨hlen, hlt, hsmall, hsize, hlegal, hcrc⟩ := (Rx.inv_objectId_iff hs).1 h
  have hcount : (r.count + 1).toNat = r.count.toNat + 1 := BitVec.toNat_add_of_lt (show r.count.toNat + 1 < 2 ^ 8 by omega)
  have hfour : (r.count + 1).toNat = 4 := congrArg BitVec.toNat hc
  have hlen' : (r.pktlen + 1).toNat = 4 + r.count.toNat + 1 := by rw [pktlen_succ (by omega), hlen]
  have hlen8 : (r.pktlen + 1).toNat = 8 := by omega
  exact (Rx.inv_instanceId_iff rfl).2 ⟨hlen8, Nat.zero_lt_succ _, .inl rfl, hsize, hlegal,
    crc_eq_of_fold_header hcrc hlen (by omega) rfl hlen' (take_frameHeader_nextObjid hlt hsmall)⟩

/-- The header up to the instance id's first `k` bytes. -/
theorem take_frameHeader_instid {k : Nat} (hk : k ≤ 2) (ty : Byte) (len : Half) (o : ObjId) (i : InstId) :
    (frameHeader ty len o i).take (8 + k) = [Config.syncVal, ty] ++ le16 len ++ le32 o ++ (le16 i).take k := by
  obtain rfl | rfl | rfl : k = 0 ∨ k = 1 ∨ k = 2 := by omega
  all_goals rfl

theorem Rx.inv_instanceId_low (hs : r.state = .instanceId) (h : r.inv = true) (hc : r.count = 0) :
    Rx.inv { r.fold b with instid := b.setWidth 16, count := 1 } = true := by
  obtain ⟨hlen, -, -, hsize, hlegal, hcrc⟩ := (Rx.inv_instanceId_iff hs).1 h
  have hlen8 : r.pktlen.toNat = 8 := by rw [hlen, hc]; rfl
  have hlen9 : (r.pktlen + 1).toNat = 9 := by rw [pktlen_succ (by omega), hlen8]
  have hheader : (frameHeader r.type r.size r.objid (b.setWidth 16)).take 9 =
      (frameHeader r.type r.size r.objid r.instid).take 8 ++ [b] := by
    rw [take_frameHeader_instid (k := 1) (by decide), le16_setWidth]
    rfl
  exact (Rx.inv_instanceId_iff (r := { r.fold b with instid := b.setWidth 16, count := 1 }) hs).2
    ⟨hlen9, Nat.one_lt_two, .inr ((toNat_setWidth16 b).trans_lt b.isLt), hsize, hlegal,
      crc_eq_of_fold_header hcrc hlen8 (by decide) rfl hlen9 hheader⟩

/-- The second byte of the instance id completes the header (R126), before payload length discovery. -/
theorem Rx.header_complete (hs : r.state = .instanceId) (h : r.inv = true) (hc : r.count ≠ 0) :
    (r.pktlen + 1).toNat = 10 ∧
      crc8Update r.crc b = crc8 (frameHeader r.type r.size r.objid (putHigh r.instid b)) := by
  obtain ⟨hlen, hlt, hsmall, -, -, hcrc⟩ := (Rx.inv_instanceId_iff hs).1 h
  have hlen9 : r.pktlen.toNat = 9 := by rw [hlen, toNat_eq_one_of_lt_two hlt hc]
  obtain ⟨b0, hb0⟩ := exists_setWidth16 (hsmall.resolve_left hc)
  have hheader : frameHeader r.type r.size r.objid (putHigh r.instid b) =
      (frameHeader r.type r.size r.objid r.instid).take 9 ++ [b] := by
    rw [take_frameHeader_instid (k := 1) (by decide), hb0, frameHeader, le16_putHigh, le16_setWidth, List.append_assoc]
    rfl
  refine ⟨by rw [pktlen_succ (by omega), hlen9], ?_⟩
  rw [hheader, crc8_snoc, hcrc, Rx.consumed_header hlen9 (by decide)]

/-- The payload length found for a legal type: with one byte or more, the type carries a payload (R77, R127). -/
theorem Rx.carriesPayload_of_expectedLength (hlegal : r.typeLegal = true) {m : ObjectMeta}
    (hpos : 0 < expectedLength r.type m) : r.carriesPayload = true := by
  obtain ⟨t, ht⟩ := Option.isSome_iff_exists.1 hlegal
  rw [FrameType.byte_of_ofByte ht, expectedLength_byte] at hpos
  rw [Rx.carriesPayload, ht]
  dsimp only
  by_contra hno
  rw [if_neg hno] at hpos
  exact absurd hpos (Nat.lt_irrefl 0)

theorem Rx.inv_instanceId_high (hs : r.state = .instanceId) (h : r.inv = true) (hc : r.count ≠ 0) {m : ObjectMeta}
    (hmax : expectedLength r.type m ≤ 255) (hsize : 10 + expectedLength r.type m = r.size.toNat) :
    Rx.inv { r.fold b with
      instid := putHigh r.instid b
      count := 0
      objMeta := some m
      expected := BitVec.ofNat 8 (expectedLength r.type m)
      state := if 0 < expectedLength r.type m then .data else .checksum } = true := by
  obtain ⟨-, -, -, -, hlegal, -⟩ := (Rx.inv_instanceId_iff hs).1 h
  obtain ⟨hlen, hcrc⟩ := Rx.header_complete (b := b) hs h hc
  have hexp := expected_toNat hmax
  by_cases hpos : 0 < expectedLength r.type m
  · rw [if_pos hpos]
    refine (Rx.inv_data_iff rfl).2 ⟨hlen, hpos.trans_eq hexp.symm, hsize.symm.trans (by rw [hexp]),
      Rx.carriesPayload_of_expectedLength hlegal hpos, hlegal, ?_⟩
    rw [Rx.consumed_payload hlen]
    exact hcrc.trans (congrArg crc8 (List.append_nil _).symm)
  · rw [if_neg hpos]
    have hzero : expectedLength r.type m = 0 := by omega
    rw [hzero] at hsize ⊢
    refine (Rx.inv_checksum_iff rfl).2 ⟨hlen, rfl, hsize.symm, .inr rfl, hlegal, ?_⟩
    rw [Rx.consumed_payload hlen]
    exact hcrc.trans (congrArg crc8 (List.append_nil _).symm)

/-- A byte of the payload extends the bytes consumed by itself (R128). -/
theorem Rx.inv_data_next (hs : r.state = .data) (h : r.inv = true) (hwf : r.buf.wf = true) :
    Rx.inv { r.fold b with
      buf := Memory.write r.count.toNat b r.buf
      count := r.count + 1
      state := if r.count + 1 = r.expected then .checksum else .data } = true := by
  obtain ⟨hlen, hlt, hsize, hcarry, hlegal, hcrc⟩ := (Rx.inv_data_iff hs).1 h
  have hexp : r.expected.toNat < 256 := r.expected.isLt
  have hcount : (r.count + 1).toNat = r.count.toNat + 1 := BitVec.toNat_add_of_lt (show r.count.toNat + 1 < 2 ^ 8 by omega)
  have hlen' : (r.pktlen + 1).toNat = 10 + (r.count + 1).toNat := by
    rw [pktlen_succ (by omega), hlen, hcount, Nat.add_assoc]
  have hconsumed : frameHeader r.type r.size r.objid r.instid ++
      Memory.firstBytes (Memory.write r.count.toNat b r.buf) (r.count + 1).toNat = r.consumed ++ [b] := by
    rw [Rx.consumed_payload hlen, hcount, Memory.firstBytes_write_succ hwf, List.append_assoc]
  by_cases hlast : r.count + 1 = r.expected
  · rw [if_pos hlast]
    have hend : (r.pktlen + 1).toNat = 10 + r.expected.toNat := by rw [hlen', hlast]
    exact (Rx.inv_checksum_iff rfl).2 ⟨hend, hlast, hsize, .inl hcarry, hlegal,
      crc_eq_of_fold hcrc rfl ((Rx.consumed_payload hlen').trans hconsumed)⟩
  · rw [if_neg hlast]
    have hne : (r.count + 1).toNat ≠ r.expected.toNat := fun heq => hlast (BitVec.eq_of_toNat_eq heq)
    exact (Rx.inv_data_iff rfl).2 ⟨hlen', by dsimp only [Rx.fold]; omega, hsize, hcarry, hlegal,
      crc_eq_of_fold hcrc rfl ((Rx.consumed_payload hlen').trans hconsumed)⟩

/-- The count of a payload byte is an index the buffer has (R31). -/
theorem Rx.count_ne_of_data (hs : r.state = .data) (h : r.inv = true) : r.count ≠ 255 := by
  obtain ⟨-, hlt, -⟩ := (Rx.inv_data_iff hs).1 h
  have hexp : r.expected.toNat < 256 := r.expected.isLt
  intro hc
  rw [hc, show (255 : BitVec 8).toNat = 255 from rfl] at hlt
  omega

theorem Rx.inv_checksum_complete (hs : r.state = .checksum) (h : r.inv = true) :
    Rx.inv { r with pktlen := r.pktlen + 1, state := .complete } = true := by
  obtain ⟨hlen, hcount, hsize, hcarry, hlegal, -⟩ := (Rx.inv_checksum_iff hs).1 h
  have hexp : r.expected.toNat < 256 := r.expected.isLt
  have hlen' : (r.pktlen + 1).toNat = 11 + r.expected.toNat := by
    rw [pktlen_succ (by omega), hlen]
    omega
  exact (Rx.inv_complete_iff rfl).2 ⟨hlen', hcount, hsize, hcarry, hlegal⟩

end

end Sys2Proof.Machine
end

section
/-! SUPPORT. The invariant of the machine (R33, R34, R35, R39): what each operation keeps of it, and that in a state that
satisfies it every instruction completes. -/

namespace Sys2Proof.Machine

/-- What the machine keeps of its receive registers: the invariant of their state, and the canonical form of the buffer. -/
def RxInv (r : Rx) : Prop := r.inv = true ∧ r.buf.wf = true

/-! The rule of each state of the receive machine. -/

section
variable {s : State}

theorem rxSync_inv (hwf : s.rx.buf.wf = true) (b : Byte) : RxInv (rxSync b s).rx := by
  unfold rxSync
  split
  · exact ⟨(Rx.inv_type_iff rfl).2 ⟨rfl, crc8_syncVal, rfl, rfl⟩, hwf⟩
  · exact ⟨Rx.inv_of_sync rfl, hwf⟩

section
variable (h : RxInv s.rx) (b : Byte)
include h

theorem rxType_inv (hs : s.rx.state = .type) : RxInv (rxType b s).rx := by
  obtain ⟨hinv, hwf⟩ := h
  unfold rxType
  split
  · rename_i hb
    exact ⟨Rx.inv_type_next hs hinv hb, hwf⟩
  · exact ⟨Rx.inv_of_sync rfl, hwf⟩

theorem rxSize_inv (hs : s.rx.state = .size) : RxInv (rxSize b s).rx := by
  obtain ⟨hinv, hwf⟩ := h
  unfold rxSize
  split
  · rename_i hc
    exact ⟨Rx.inv_size_low hs hinv hc, hwf⟩
  · rename_i hc
    dsimp only
    split
    · exact ⟨Rx.inv_of_error rfl, hwf⟩
    · rename_i hrange
      obtain ⟨hmin, hmax⟩ := not_or.1 hrange
      exact ⟨Rx.inv_size_high hs hinv hc (not_lt.1 hmin) (not_lt.1 hmax), hwf⟩

theorem rxObjectId_inv (hs : s.rx.state = .objectId) : RxInv (rxObjectId b s).rx := by
  obtain ⟨hinv, hwf⟩ := h
  unfold rxObjectId
  split
  · rename_i hc
    exact ⟨Rx.inv_objectId_last hs hinv hc, hwf⟩
  · rename_i hc
    exact ⟨Rx.inv_objectId_next hs hinv hc, hwf⟩

theorem rxInstanceId_inv (hs : s.rx.state = .instanceId) : RxInv (rxInstanceId b s).rx := by
  obtain ⟨hinv, hwf⟩ := h
  unfold rxInstanceId
  split
  · rename_i hc
    exact ⟨Rx.inv_instanceId_low hs hinv hc, hwf⟩
  · rename_i hc
    obtain ⟨-, hd⟩ | ⟨m, -, ⟨-, hd⟩ | ⟨-, -, hd⟩ | ⟨hmax, hsize, hd⟩⟩ := rxDiscover_cases
      { s with rx := { s.rx.fold b with instid := putHigh s.rx.instid b, count := 0 } } <;> rw [hd]
    · exact ⟨Rx.inv_of_error rfl, hwf⟩
    · exact ⟨Rx.inv_of_error rfl, hwf⟩
    · exact ⟨Rx.inv_of_error rfl, hwf⟩
    · exact ⟨Rx.inv_instanceId_high hs hinv hc hmax hsize, hwf⟩

theorem rxData_inv (hs : s.rx.state = .data) : RxInv (rxData b s).rx := by
  obtain ⟨hinv, hwf⟩ := h
  have hnext := Rx.inv_data_next (b := b) hs hinv hwf
  have hwf' := Memory.write_wf (v := b) (count_lt_maxPayload (Rx.count_ne_of_data hs hinv)) hwf
  unfold rxData
  dsimp only
  split
  · rename_i hlast
    rw [if_pos hlast] at hnext
    exact ⟨hnext, hwf'⟩
  · rename_i hlast
    rw [if_neg hlast, ← hs] at hnext
    exact ⟨hnext, hwf'⟩

/-- A legal type register has a dispatch rule, and dispatch writes no receive register (R170). -/
theorem completeFrame_inv (hs : s.rx.state = .complete) : ∃ t, completeFrame s = .next t ∧ RxInv t.rx := by
  obtain ⟨-, -, -, -, hlegal⟩ := (Rx.inv_complete_iff hs).1 h.1
  obtain ⟨hnone, -⟩ | ⟨ty, -, hnext⟩ := completeFrame_cases s
  · rw [Rx.typeLegal, hnone] at hlegal
    cases hlegal
  · exact ⟨_, hnext, by rwa [finishFrame_dispatch_rx]⟩

theorem feedInState_checksum_inv (hs : s.rx.state = .checksum) : ∃ t, feedInState b s = .next t ∧ RxInv t.rx := by
  have hfeed : feedInState b s = if (rxChecksum b s).rx.state = .complete then completeFrame (rxChecksum b s)
      else .next (returnOutcome (rxChecksum b s)) := by rw [feedInState, hs]
  rw [hfeed]
  obtain ⟨-, hr⟩ | ⟨-, -, hr⟩ | ⟨-, -, hr⟩ := rxChecksum_cases b s <;> rw [hr]
  · exact ⟨_, rfl, Rx.inv_of_error rfl, h.2⟩
  · exact ⟨_, rfl, Rx.inv_of_error rfl, h.2⟩
  · exact completeFrame_inv ⟨Rx.inv_checksum_complete hs h.1, h.2⟩ rfl

/-- One byte after the prologue (R120): the step completes, and keeps what is kept of the registers. -/
theorem feedInState_inv : ∃ t, feedInState b s = .next t ∧ RxInv t.rx := by
  cases hs : s.rx.state with
  | sync => exact ⟨returnOutcome (rxSync b s), by rw [feedInState, hs], rxSync_inv h.2 b⟩
  | type => exact ⟨returnOutcome (rxType b s), by rw [feedInState, hs], rxType_inv h b hs⟩
  | size => exact ⟨returnOutcome (rxSize b s), by rw [feedInState, hs], rxSize_inv h b hs⟩
  | objectId => exact ⟨returnOutcome (rxObjectId b s), by rw [feedInState, hs], rxObjectId_inv h b hs⟩
  | instanceId => exact ⟨returnOutcome (rxInstanceId b s), by rw [feedInState, hs], rxInstanceId_inv h b hs⟩
  | data =>
    have hfeed : feedInState b s = .next (returnOutcome (rxData b s)) := by
      rw [feedInState, hs]
      exact if_neg (Rx.count_ne_of_data hs h.1)
    exact ⟨_, hfeed, rxData_inv h b hs⟩
  | checksum => exact feedInState_checksum_inv h b hs
  | complete => exact ⟨returnOutcome (rxSync b s), by rw [feedInState, hs], rxSync_inv h.2 b⟩
  | error => exact ⟨returnOutcome (rxSync b s), by rw [feedInState, hs], rxSync_inv h.2 b⟩

end

end

/-- Recovery (R238) leaves a state alone or goes to `Sync`. -/
theorem RxState.recover_cases (st : RxState) : st.recover = .sync ∨ st.recover = st := by
  cases st with
  | sync | complete | error => exact .inl rfl
  | type | size | objectId | instanceId | data | checksum => exact .inr rfl

theorem beginByte_inv {s : State} (h : RxInv s.rx) : RxInv (beginByte s).rx := by
  refine ⟨?_, h.2⟩
  rw [beginByte_rx]
  obtain hsync | hsame := s.rx.state.recover_cases
  · exact Rx.inv_of_sync hsync
  · rw [hsame]
    exact h.1

theorem exec_feedByte_inv {s : State} (h : RxInv s.rx) (b : Byte) :
    ∃ t, exec (.feedByte b) s = .next t ∧ RxInv t.rx := by
  rw [exec_feedByte]
  exact feedInState_inv (beginByte_inv h) b

theorem exec_rxInv {i : Instr} {s t : State} (h : RxInv s.rx) (hexec : exec i s = .next t) : RxInv t.rx := by
  by_cases hi : ∃ b, i = .feedByte b
  · obtain ⟨b, rfl⟩ := hi
    obtain ⟨t', ht', hinv⟩ := exec_feedByte_inv h b
    rw [ht'] at hexec
    cases hexec
    exact hinv
  · rwa [exec_rx (fun b hb => hi ⟨b, hb⟩) hexec]

/-! The table: canonical, and no larger than its depth (R33, R34). -/

section
variable {depth : Config.Limit} {t : TxnTable}

theorem TxnTable.fits_of_length_le {t' : TxnTable} (hle : t'.length ≤ t.length) (h : t.fits depth = true) :
    t'.fits depth = true := by
  cases depth with
  | unbounded => rfl
  | finite k => exact decide_eq_true (hle.trans (of_decide_eq_true h))

/-- Opening a pending key adds no entry; opening another needs a free one (R156). -/
theorem TxnTable.insert_fits {o : ObjId} {i : InstId} (r : Resp) (hwf : t.wf = true) (h : t.fits depth = true)
    (hroom : t.canOpen depth o i = true) : (t.insert o i r).fits depth = true := by
  have hlen := TxnTable.insert_length (o := o) (i := i) (r := r) hwf
  by_cases hpending : (t.get o i).isSome = true
  · rw [if_pos hpending] at hlen
    exact TxnTable.fits_of_length_le hlen.le h
  · rw [if_neg hpending] at hlen
    obtain rfl | ⟨k, rfl, hlt⟩ := ((TxnTable.canOpen_iff depth t o i).1 hroom).resolve_left hpending
    · rfl
    · exact decide_eq_true (hlen.trans_le hlt)

end

theorem TxnMoves.keeps {note : TxnKey → PortEvent} {s t : State} {evs : List PortEvent} (h : TxnMoves note s t evs)
    (hwf : s.txn.wf = true) (hfits : s.txn.fits s.params.txnDepth = true) :
    t.txn.wf = true ∧ t.txn.fits s.params.txnDepth = true := by
  obtain ⟨-, htxn⟩ | ⟨k, -, -, htxn⟩ | ⟨-, o, i, r, hroom, htxn⟩ := h <;> rw [htxn]
  · exact ⟨hwf, hfits⟩
  · exact ⟨TxnTable.close_wf hwf, TxnTable.fits_of_length_le (TxnTable.close_length_le k s.txn) hfits⟩
  · exact ⟨TxnTable.insert_wf hwf, TxnTable.insert_fits r hwf hfits hroom⟩

/-! The whole invariant. -/

theorem State.inv_iff (s : State) : s.inv = true ↔ RxInv s.rx ∧ s.txn.wf = true ∧
    s.txn.fits s.params.txnDepth = true ∧ s.stats.within s.params.statW = true := by
  simp [State.inv, RxInv, and_assoc]

/-- The reset event establishes it, whatever the parameters are (R260). -/
theorem resetBlock_inv (s : State) : (resetBlock s).inv = true := by
  refine (State.inv_iff _).2 ⟨⟨rfl, rfl⟩, rfl, ?_, Stats.zero_within _⟩
  rw [resetBlock_txn]
  cases (resetBlock s).params.txnDepth with
  | unbounded => rfl
  | finite k => exact decide_eq_true (Nat.zero_le (k + 1))

/-- Every instruction keeps it, the frame rows included. -/
theorem exec_inv {i : Instr} {s t : State} (h : s.inv = true) (hexec : exec i s = .next t) : t.inv = true := by
  obtain ⟨hrx, hwf, hfits, hwithin⟩ := (State.inv_iff s).1 h
  have heffect := exec_effect hexec
  obtain ⟨evs, -, hmoves, -⟩ := heffect.out
  obtain ⟨hwf', hfits'⟩ := hmoves.keeps hwf hfits
  obtain ⟨-, -, hcounters⟩ := countersNeverDecrease
  obtain ⟨hwithin', -⟩ := hcounters i s t hwithin hexec
  rw [← heffect.params] at hfits' hwithin'
  exact (State.inv_iff t).2 ⟨exec_rxInv hrx hexec, hwf', hfits', hwithin'⟩

/-- Everything a step can do (R8, log 17): the head of the inbox decides. -/
theorem step_cases (s : State) :
    step s = .next s ∨ (∃ rest, step s = .next { resetBlock s with inbox := rest }) ∨
    (∃ e rest, step s = .next { s with env := e, inbox := rest }) ∨
    (∃ i rest, step s = exec i { s with inbox := rest }) ∨ ∃ r, step s = .refused r := by
  cases hin : s.inbox with
  | nil => exact .inl (step_idle hin)
  | cons a rest =>
    cases a with
    | reset => exact .inr (.inl ⟨rest, step_reset hin⟩)
    | environment e => exact .inr (.inr (.inl ⟨e, rest, step_environment hin⟩))
    | op bytes =>
      cases hd : decode bytes with
      | error e => exact .inr (.inr (.inr (.inr ⟨_, step_undecodable hin hd⟩)))
      | ok i =>
        cases hi : isFrame i with
        | true => exact .inr (.inr (.inr (.inr ⟨_, step_frame hin hd hi⟩)))
        | false => exact .inr (.inr (.inr (.inl ⟨i, rest, step_op hin hd hi⟩)))

/-- Settles O57: the invariant reads neither the environment nor the inbox, reset establishes it, and every instruction
keeps it. -/
theorem stepKeepsInvariant : Obligations.StepKeepsInvariant := by
  intro s t h hstep
  obtain hs | ⟨rest, hs⟩ | ⟨e, rest, hs⟩ | ⟨i, rest, hs⟩ | ⟨r, hs⟩ := step_cases s <;> rw [hs] at hstep
  · cases hstep
    exact h
  · cases hstep
    exact resetBlock_inv s
  · cases hstep
    exact h
  · exact exec_inv (s := { s with inbox := rest }) h hstep
  · cases hstep

theorem exec_completes {s : State} (h : s.inv = true) (i : Instr) : ∃ t, exec i s = .next t := by
  cases i with
  | feedByte b =>
    obtain ⟨hrx, -⟩ := (State.inv_iff s).1 h
    obtain ⟨t, ht, -⟩ := exec_feedByte_inv hrx b
    exact ⟨t, ht⟩
  | cancelTransaction o n =>
    obtain ⟨-, hexec⟩ | ⟨k, -, hexec⟩ := exec_cancelTransaction_cases o n s
    · exact ⟨_, hexec⟩
    · exact ⟨_, hexec⟩
  | obj | objReq | objAck | ack | nack | crc8Update | crc8UpdateMany | buildFrame | sendObject | sendRequest | statsReset
  | statsRead => exact ⟨_, rfl⟩

/-- Settles O51: the two faults need registers that the invariant rules out. -/
theorem everyInstructionCompletes : Obligations.EveryInstructionCompletes := by
  refine ⟨fun i s h => exec_completes h i, fun s f h hfault => ?_⟩
  obtain hs | ⟨rest, hs⟩ | ⟨e, rest, hs⟩ | ⟨i, rest, hs⟩ | ⟨r, hs⟩ := step_cases s <;> rw [hs] at hfault
  · cases hfault
  · cases hfault
  · cases hfault
  · obtain ⟨t, ht⟩ := exec_completes (s := { s with inbox := rest }) h i
    rw [ht] at hfault
    cases hfault
  · cases hfault

/-- Settles O55. -/
theorem resetValues : Obligations.ResetValues :=
  ⟨rfl, rfl, rfl, rfl, rfl, rfl, rfl, rfl, rfl, rfl, Memory.read_nil, TxnTable.get_nil, rfl⟩

/-- Settles O56: the state after reset is one the reset event leaves as it is. -/
theorem resetSatisfiesInvariant : Obligations.ResetSatisfiesInvariant := resetBlock_inv State.reset

end Sys2Proof.Machine
end
